-- ==== Sys2Proof/Word.lean ====
section
/-! DEFINITION. The word types of the core and nothing else: bytes, decode-table entries, command words. -/

namespace Sys2Proof

/-- A byte of INPUT or WIN (spec 20_memory.md R81, R82). -/
abbrev Byte := BitVec 8

/-- A decode-table entry: a signed 16-bit value (10_state.md R40). -/
abbrev Entry := BitVec 16

/-- A 32-bit command or response word (30_encoding.md R135, R136). -/
abbrev Word32 := BitVec 32

end Sys2Proof
end

