-- ==== Sys2Proof/Config.lean ====
section
/-! DEFINITION. What is fixed for the core (Table P of 00_scope.md R7) and the free values of the spec: its draws (R9).
The opaque constants have no body: nothing can evaluate one or prove a value of it. -/

namespace Sys2Proof.Config

/-- WIN_SIZE, the bytes of the window (R7). -/
abbrev winSize : Nat := 32768

/-- N_MAX, the largest bit request (R7, R207). -/
abbrev maxRequest : Nat := 16

/-- MAX_CODE_LEN (R7). -/
abbrev maxCodeLen : Nat := 15

/-- LL_SYMS, the literal/length alphabet (R7). -/
abbrev llSyms : Nat := 288

/-- D_SYMS, the capacity of the distance table in symbols (R7, decision D7). -/
abbrev dSyms : Nat := 32

/-- D_VALID, the number of valid distance symbols (R7). -/
abbrev dValid : Nat := 30

/-- CL_SYMS, the code-length alphabet (R7). -/
abbrev clSyms : Nat := 19

/-- The entries of T_LL (R7, R40). -/
abbrev tLLSize : Nat := 574

/-- The entries of T_D (R7, R40). -/
abbrev tDSize : Nat := 62

/-- The entries of T_CL (R7, R40). -/
abbrev tCLSize : Nat := 36

/-- The elements of LENS (R7, R41). -/
abbrev lensSize : Nat := 320

/-- The YIELD draw (R9, R434): the n-th draw of the machine decides whether STEP returns Progress after a `continue`.
FREE VALUE, log entry 1. -/
opaque yieldDraw : Nat → Bool

/-- What IS_FINAL returns in FAILED: any value (R435, R504). FREE VALUE, log entry 2. -/
opaque freeFinal : Nat → Bool

/-- The byte count POSITION returns in FAILED: any value (R436, R504). FREE VALUE, log entry 2. -/
opaque freePosBytes : Nat → BitVec 64

/-- The residual bit count POSITION returns in FAILED: any value (R436, R504). FREE VALUE, log entry 2. -/
opaque freePosBits : Nat → BitVec 3

/-- What READ_CRC returns before DONE and in FAILED: any value (R383, R438, R504). FREE VALUE, log entry 2. -/
opaque freeCrc : Nat → BitVec 32

end Sys2Proof.Config
end

