-- ==== Sys2Proof/Machine/Flags.lean ====
section
/-! DEFINITION. The one-bit tests and the numeric codes of the core: the zlib-style header test, the codes of TAG, STATUS,
ERR_KIND and HUFF_REASON, and the response word. The core has no arithmetic condition flags (10_state.md R34). -/

namespace Sys2Proof.Machine

/-! The codes of TAG, the sequencer's program counter (10_state.md R32, Table T). -/

/-- TAG 0 (R600). -/
abbrev Tag.unopened : BitVec 5 := 0#5
/-- TAG 1 (R420). -/
abbrev Tag.zhdr : BitVec 5 := 1#5
/-- TAG 2 (R270). -/
abbrev Tag.bhdr : BitVec 5 := 2#5
/-- TAG 3 (R272). -/
abbrev Tag.stLen : BitVec 5 := 3#5
/-- TAG 4 (R273). -/
abbrev Tag.stNlen : BitVec 5 := 4#5
/-- TAG 5 (R274). -/
abbrev Tag.stCopy : BitVec 5 := 5#5
/-- TAG 6 (R276). -/
abbrev Tag.fxBuild : BitVec 5 := 6#5
/-- TAG 7 (R300). -/
abbrev Tag.dyHlit : BitVec 5 := 7#5
/-- TAG 8 (R301). -/
abbrev Tag.dyHdist : BitVec 5 := 8#5
/-- TAG 9 (R302). -/
abbrev Tag.dyHclen : BitVec 5 := 9#5
/-- TAG 10 (R303). -/
abbrev Tag.dyCll : BitVec 5 := 10#5
/-- TAG 11 (R304). -/
abbrev Tag.dyClbuild : BitVec 5 := 11#5
/-- TAG 12 (R305). -/
abbrev Tag.dyLsym : BitVec 5 := 12#5
/-- TAG 13 (R306). -/
abbrev Tag.dyLextra : BitVec 5 := 13#5
/-- TAG 14 (R307). -/
abbrev Tag.dyBuild : BitVec 5 := 14#5
/-- TAG 15 (R343). -/
abbrev Tag.sym : BitVec 5 := 15#5
/-- TAG 16 (R344). -/
abbrev Tag.lenExtra : BitVec 5 := 16#5
/-- TAG 17 (R345). -/
abbrev Tag.dsym : BitVec 5 := 17#5
/-- TAG 18 (R346). -/
abbrev Tag.distExtra : BitVec 5 := 18#5
/-- TAG 19 (R347). -/
abbrev Tag.copy : BitVec 5 := 19#5
/-- TAG 20 (R278). -/
abbrev Tag.blkEnd : BitVec 5 := 20#5
/-- TAG 21 (R279). -/
abbrev Tag.fin : BitVec 5 := 21#5
/-- TAG 22 (R431). -/
abbrev Tag.done : BitVec 5 := 22#5
/-- TAG 23 (R503). -/
abbrev Tag.failed : BitVec 5 := 23#5

/-- TAG ∈ {UNOPENED, DONE, FAILED}: STEP and SUPPLY answer Error(invalid_state) (R431, R433). -/
def tagTerminal (t : BitVec 5) : Bool := t == Tag.unopened || t == Tag.done || t == Tag.failed

/-- TAG ∈ 24..31, the codes no rule writes (R32, R501). -/
def tagReserved (t : BitVec 5) : Bool := decide (24 ≤ t.toNat)

/-! STATUS codes (R42). -/

/-- Progress. -/
abbrev Status.progress : BitVec 3 := 0#3
/-- BlockComplete. -/
abbrev Status.blockComplete : BitVec 3 := 1#3
/-- NeedMoreInput. -/
abbrev Status.needMoreInput : BitVec 3 := 2#3
/-- OutputFull. -/
abbrev Status.outputFull : BitVec 3 := 3#3
/-- Error. -/
abbrev Status.error : BitVec 3 := 4#3
/-- None: after OPEN, before any STEP. -/
abbrev Status.none : BitVec 3 := 7#3

/-- The error kinds (60_exceptions.md R500). -/
inductive ErrKind where
  | noData | outOfData | invalidParameter | customDictionary | invalidState | invalidBlockCode | corruptStream
  | huffmanTableGenFailed | invalidSymbol | invalidDistance
  deriving DecidableEq, Repr

/-- The ERR_KIND code of a kind (R500). -/
def errCode : ErrKind → BitVec 4
  | .noData => 1#4
  | .outOfData => 2#4
  | .invalidParameter => 3#4
  | .customDictionary => 4#4
  | .invalidState => 5#4
  | .invalidBlockCode => 6#4
  | .corruptStream => 7#4
  | .huffmanTableGenFailed => 8#4
  | .invalidSymbol => 9#4
  | .invalidDistance => 10#4

/-- Why BUILD fails (41_huffman.md R230, R239). -/
inductive HuffReason where
  | noSymbols | tooManySymbols | incompleteTree
  deriving DecidableEq, Repr

/-- The HUFF_REASON code of a reason (R43, R239). -/
def huffCode : HuffReason → BitVec 2
  | .noSymbols => 1#2
  | .tooManySymbols => 2#2
  | .incompleteTree => 3#2

/-- The response word of OPEN, STEP and SUPPLY: STATUS in bits 2:0, ERR_KIND in 6:3, HUFF_REASON in 8:7, OUT_LEN in 31:16
when STATUS = 3 (OutputFull) and 0 there otherwise (R136; the zero is log entry 8). -/
def responseWord (status : BitVec 3) (err : BitVec 4) (huff : BitVec 2) (outLen : BitVec 16) : Word32 :=
  (if status = Status.outputFull then outLen else 0#16) ++ 0#7 ++ huff ++ err ++ status

/-- The header test of 46_zlib_header_and_host.md R420: (V & 0x8F00) = 0x0800 and V mod 31 = 0. -/
def isZlibHeader (v : BitVec 16) : Bool := v &&& 0x8F00#16 == 0x0800#16 && v.toNat % 31 == 0

/-- FDICT, V[5] (R122, R422). -/
def hasFdict (v : BitVec 16) : Bool := v.getLsbD 5

/-- The NLEN check of R273: NLEN = LEN ^ 0xFFFF. -/
def nlenMatches (len nlen : BitVec 16) : Bool := nlen == len ^^^ 0xFFFF#16

end Sys2Proof.Machine
end

