-- ==== Sys2Proof/Machine/State.lean ====
section
/-! DEFINITION. The state of the core and of its command port, as plain data; the reasons a step can stop; the state at
power-on. Rule numbers are those of spec/; the list of every field with its rule and reset value is INVENTORY.md, State. -/

namespace Sys2Proof.Machine

/-- A memory: (index, value) pairs in one canonical form, indices strictly rising. An unlisted index holds no value: nothing
has written it since power-on (10_state.md R46). -/
abbrev Memory (α : Type) := List (Nat × α)

/-- The canonical form of a memory. -/
abbrev Memory.wf {α : Type} (m : Memory α) : Prop := m.Pairwise (fun x y => x.1 < y.1)

/-- One command on the command port: its word and its span operand (30_encoding.md R135). -/
structure Command where
  /-- the command word -/
  word : Word32
  /-- the span operand; only OPEN and SUPPLY read it -/
  span : List Byte
  deriving DecidableEq, Repr

/-- What the command port last returned (R136, R430). -/
inductive Response where
  /-- nothing returned since power-on -/
  | none
  /-- the response word of OPEN, STEP or SUPPLY -/
  | word (w : Word32)
  /-- IS_FINAL: BFINAL -/
  | final (b : Bool)
  /-- POSITION: the byte count and the residual bit count -/
  | position (bytes : BitVec 64) (bits : BitVec 3)
  /-- READ_OUT: one byte -/
  | outByte (b : Byte)
  /-- READ_CRC: 32 bits -/
  | crc (w : Word32)
  /-- the command was refused: it changed no state and returned nothing (R430, R439) -/
  | refused
  deriving DecidableEq, Repr

/-- The state of the core (10_state.md Tables S1, S2, S3) and, last, of its command port. -/
structure State where
  /-- TAG, the sequencer's program counter (R32) -/
  tag : BitVec 5
  /-- ACC, the bit accumulator, oldest bit first; NBITS is its length (R35) -/
  acc : List Bool
  /-- SPAN, the host's current input bytes (INPUT); SLEN is its length (R35, R81) -/
  span : List Byte
  /-- IPOS, the index of the next byte of SPAN to pull (R35) -/
  ipos : Nat
  /-- IN_TOTAL, the bytes pulled since OPEN (R35) -/
  inTotal : BitVec 64
  /-- BFINAL (R34) -/
  bfinal : Bool
  /-- BTYPE (R36) -/
  btype : BitVec 2
  /-- STORED_LEN (R36) -/
  storedLen : BitVec 16
  /-- REM, the bytes left in the stored block or in the copy (R36) -/
  rem : BitVec 16
  /-- HLIT (R37) -/
  hlit : BitVec 9
  /-- HDIST (R37) -/
  hdist : BitVec 6
  /-- HCLEN (R37) -/
  hclen : BitVec 5
  /-- K, the code-length-code lengths read (R37) -/
  k : BitVec 5
  /-- J, the entries of LENS filled (R37) -/
  j : BitVec 9
  /-- LAST_LEN (R37) -/
  lastLen : BitVec 4
  /-- CUR, the current symbol (R37) -/
  cur : BitVec 9
  /-- MLEN, the length of the current back-reference (R38) -/
  mlen : BitVec 9
  /-- DSYM, the current distance symbol (R38) -/
  dsym : BitVec 5
  /-- DIST, the current distance (R38) -/
  dist : BitVec 16
  /-- WPOS, the index in WIN of the next byte to write (R39) -/
  wpos : BitVec 16
  /-- HIST, the bytes produced since OPEN, saturated at 32768 (R39) -/
  hist : BitVec 16
  /-- OUT_LEN, the bytes the most recent OutputFull handed over (R39) -/
  outLen : BitVec 16
  /-- FLUSH_PENDING (R34) -/
  flushPending : Bool
  /-- D_EMPTY (R34) -/
  dEmpty : Bool
  /-- CRC, the running CRC32 register (R39) -/
  crc : BitVec 32
  /-- STATUS (R42) -/
  status : BitVec 3
  /-- ERR_KIND (R43) -/
  errKind : BitVec 4
  /-- HUFF_REASON (R43) -/
  huffReason : BitVec 2
  /-- PARSE_HEADER (R34) -/
  parseHeader : Bool
  /-- NLEN_CHECKED (R34) -/
  nlenChecked : Bool
  /-- REJECT_OVERSIZE (R34) -/
  rejectOversize : Bool
  /-- VENDOR (R34) -/
  vendor : Bool
  /-- WIN, the 32768-byte window (R82) -/
  win : List Host.Cell
  /-- T_LL, 574 entries (R40) -/
  tLL : Memory Entry
  /-- T_D, 62 entries (R40) -/
  tD : Memory Entry
  /-- T_CL, 36 entries (R40) -/
  tCL : Memory Entry
  /-- CLENS, 19 code-length-code lengths (R41) -/
  clens : Memory (BitVec 3)
  /-- LENS, 320 code lengths (R41) -/
  lens : Memory (BitVec 4)
  /-- a STEP command is in progress: the core executes micro-steps only then (R6, R431) -/
  stepping : Bool
  /-- the commands the host has put on the command port and the core has not accepted yet, first one first (R430) -/
  port : List Command
  /-- what the last command returned (R136) -/
  response : Response
  /-- the model's own counter of draws: the next free value is the one numbered `draws` (R9, log entries 1 and 2) -/
  draws : Nat
  deriving DecidableEq, Repr

/-- Why the machine stops. No rule of the spec reaches one of these from OPEN (R46, R602): they are the reads R46 tells a
model to fault on, and accesses to elements that do not exist. Each is SAFE: it is raised only where the spec gives no value
and no effect. -/
inductive Fault where
  /-- COPY or READ_OUT read a byte of WIN that nothing has written. Safe (R46). -/
  | winUnwritten
  /-- PUT with WPOS ≥ 32768: WIN has no such index. Safe (R47(b), R349). -/
  | winOutside
  /-- DECODE read a table entry that BUILD has not written, or past the table's end. Safe (R40, R46). -/
  | tableUnwritten
  /-- DY_CLBUILD read an entry of CLENS that nothing has written. Safe (R46). -/
  | clensUnwritten
  /-- DY_BUILD read an entry of LENS that nothing has written. Safe (R46). -/
  | lensUnwritten
  /-- DY_LSYM, DY_LEXTRA or their tokens wrote LENS past entry 319. Safe (R41, R47(d)). -/
  | lensOutside
  /-- DY_CLL, LEN_EXTRA or DIST_EXTRA read a row ROM_CLORDER, ROM_LEN or ROM_DIST does not have. Safe (R129, R130, R308). -/
  | romOutside
  /-- DY_LSYM decoded a code-length symbol above 18, or DY_LEXTRA ran with CUR outside 16..18. Safe (R305, R306). -/
  | clSymbolOutside
  /-- BHDR ran with VENDOR = 1: that dialect has no meaning. Safe (R271). -/
  | vendorDialect
  deriving DecidableEq, Repr

/-- Why an instruction has no meaning. -/
inductive Refusal where
  /-- The instruction of this mnemonic has no meaning in the model yet; raised by its arm of `exec`. Safe. -/
  | notModelled (mnemonic : String)
  deriving DecidableEq, Repr

/-- The core at power-on: TAG = UNOPENED (R600), every memory unwritten, nothing on the port. The spec gives the other
registers no value; zero is log entry 3 (DESIGN CHOICE). -/
def State.reset : State where
  tag := 0#5
  acc := []
  span := []
  ipos := 0
  inTotal := 0#64
  bfinal := false
  btype := 0#2
  storedLen := 0#16
  rem := 0#16
  hlit := 0#9
  hdist := 0#6
  hclen := 0#5
  k := 0#5
  j := 0#9
  lastLen := 0#4
  cur := 0#9
  mlen := 0#9
  dsym := 0#5
  dist := 0#16
  wpos := 0#16
  hist := 0#16
  outLen := 0#16
  flushPending := false
  dEmpty := false
  crc := 0#32
  status := 0#3
  errKind := 0#4
  huffReason := 0#2
  parseHeader := false
  nlenChecked := false
  rejectOversize := false
  vendor := false
  win := []
  tLL := []
  tD := []
  tCL := []
  clens := []
  lens := []
  stepping := false
  port := []
  response := .none
  draws := 0

end Sys2Proof.Machine
end

