-- ==== Sys2Proof/Machine/Memory.lean ====
section
/-! DEFINITION. The operations on a memory (WIN, the decode tables, CLENS, LENS): read one element, read a run, write a run.
Every write goes through `writeBlock`, which keeps the canonical form. -/

namespace Sys2Proof.Machine

variable {α : Type}

/-- The element at index `a`; none when nothing has written it (R46). -/
def Memory.read : Memory α → Nat → Option α
  | [], _ => none
  | (b, v) :: m, a => if b = a then some v else Memory.read m a

/-- The elements at `a`, …, `a + n - 1`; none when nothing has written one of them. -/
def Memory.readBlock (m : Memory α) (a : Nat) : Nat → Option (List α)
  | 0 => some []
  | n + 1 =>
    match Memory.read m a, Memory.readBlock m (a + 1) n with
    | some v, some vs => some (v :: vs)
    | _, _ => none

/-- The cells of a run of values that starts at index `a`. -/
def Memory.cells (a : Nat) : List α → Memory α
  | [] => []
  | v :: vs => (a, v) :: Memory.cells (a + 1) vs

/-- Write the values `vs` at `a`, `a + 1`, …; every other element is unchanged. -/
def Memory.writeBlock (m : Memory α) (a : Nat) (vs : List α) : Memory α :=
  m.filter (fun c => decide (c.1 < a)) ++ Memory.cells a vs ++ m.filter (fun c => decide (a + vs.length ≤ c.1))

/-- Write one element. -/
def Memory.write (m : Memory α) (a : Nat) (v : α) : Memory α := Memory.writeBlock m a [v]

end Sys2Proof.Machine
end

