-- ==== Sys2Proof/Machine/Rom.lean ====
section
/-! DEFINITION. The constant ROMs (20_memory.md R84): ROM_LEN, ROM_DIST, ROM_CLORDER, ROM_FIXED and ROM_CRC. -/

namespace Sys2Proof.Machine

/-- ROM_LEN: (LBASE, LEXT) of the length symbols 257 to 285 (R129). -/
def romLenRows : List (Nat × Nat) :=
  [(3, 0), (4, 0), (5, 0), (6, 0), (7, 0), (8, 0), (9, 0), (10, 0),
   (11, 1), (13, 1), (15, 1), (17, 1), (19, 2), (23, 2), (27, 2), (31, 2),
   (35, 3), (43, 3), (51, 3), (59, 3), (67, 4), (83, 4), (99, 4), (115, 4),
   (131, 5), (163, 5), (195, 5), (227, 5), (258, 0)]

/-- ROM_LEN[s], for s = 257..285 (R129). -/
def romLen (s : Nat) : Option (Nat × Nat) := if s < 257 then none else romLenRows[s - 257]?

/-- ROM_DIST: (DBASE, DEXT) of the distance symbols 0 to 29 (R130). -/
def romDistRows : List (Nat × Nat) :=
  [(1, 0), (2, 0), (3, 0), (4, 0), (5, 1), (7, 1), (9, 2), (13, 2), (17, 3), (25, 3),
   (33, 4), (49, 4), (65, 5), (97, 5), (129, 6), (193, 6), (257, 7), (385, 7), (513, 8), (769, 8),
   (1025, 9), (1537, 9), (2049, 10), (3073, 10), (4097, 11), (6145, 11), (8193, 12), (12289, 12), (16385, 13), (24577, 13)]

/-- ROM_DIST[d], for d = 0..29 (R130). -/
def romDist (d : Nat) : Option (Nat × Nat) := romDistRows[d]?

/-- ROM_CLORDER, the transmission order of the code-length-code lengths (R308). -/
def romClOrderRows : List Nat := [16, 17, 18, 0, 8, 7, 9, 6, 10, 5, 11, 4, 12, 3, 13, 2, 14, 1, 15]

/-- ROM_CLORDER[k], for k = 0..18 (R308). -/
def romClOrder (k : Nat) : Option Nat := romClOrderRows[k]?

/-- ROM_FIXED_LL: 8 for symbols 0..143, 9 for 144..255, 7 for 256..279, 8 for 280..287 (R277). -/
def romFixedLL : List Nat := List.replicate 144 8 ++ List.replicate 112 9 ++ List.replicate 24 7 ++ List.replicate 8 8

/-- ROM_FIXED_D: 5 for symbols 0..31 (R277). -/
def romFixedD : List Nat := List.replicate 32 5

/-- The reflected polynomial of the CRC (R380). -/
def crcPoly : BitVec 32 := 0xEDB88320#32

/-- One bit of ROM_CRC's construction (R380). -/
def crcShift (c : BitVec 32) : BitVec 32 := if c.getLsbD 0 then (c >>> 1) ^^^ crcPoly else c >>> 1

/-- `n` bits of ROM_CRC's construction (R380). -/
def crcShifts : Nat → BitVec 32 → BitVec 32
  | 0, c => c
  | n + 1, c => crcShifts n (crcShift c)

/-- ROM_CRC[i] (R380). -/
def romCrc (i : Byte) : BitVec 32 := crcShifts 8 (i.setWidth 32)

end Sys2Proof.Machine
end

