-- ==== Sys2Proof/Syntax.lean ====
section
/-! DEFINITION. The instructions of the core: one constructor per row of spec/opcode_table.json (R139). They are the
bitstream tokens (with their extra bits as the operand `x`), the host commands and the micro-operations TAG selects. -/

namespace Sys2Proof

/-- The encoding formats (30_encoding.md R139). STORED and DYN hold fields that only TAG tells apart (R134), so each of
their fields has a format of its own. -/
inductive Format where
  /-- ZHDR16, the value V (R122). -/
  | zhdr16
  /-- BHDR3, the value H (R123). -/
  | bhdr3
  /-- STORED, LEN (R124). -/
  | storedLen
  /-- STORED, NLEN (R124). -/
  | storedNlen
  /-- STORED, one BYTE (R124). -/
  | storedByte
  /-- DYN, HLIT (R126). -/
  | dynHlit
  /-- DYN, HDIST (R126). -/
  | dynHdist
  /-- DYN, HCLEN (R126). -/
  | dynHclen
  /-- DYN, CLL (R126). -/
  | dynCll
  /-- CLSYM, a code-length symbol in bits 4:0, its extra bits above (R127). -/
  | clsym
  /-- LLSYM, a literal/length symbol in bits 8:0, its extra bits above (R128). -/
  | llsym
  /-- DSYM, a distance symbol in bits 4:0, its extra bits above (R130). -/
  | dsym
  /-- CMD32, the command word (R135). -/
  | cmd32
  /-- TAG5, the value of TAG (R32). -/
  | tag5
  deriving DecidableEq, Repr

/-- One constructor per row of spec/opcode_table.json, in the table's order. -/
inductive Instr where
  -- ZHDR16: the optional zlib-style header
  /-- a zlib-style header without FDICT; `v` = V, the first byte in bits 15:8 (R420). -/
  | zlibHdr (v : BitVec 16)
  /-- a zlib-style header with FDICT = 1 (R420, R422). -/
  | zlibFdict (v : BitVec 16)
  /-- two bytes that form no header: decoded as DEFLATE data (R425). -/
  | rawNoHdr (v : BitVec 16)
  -- BHDR3: block headers
  /-- block header, BTYPE = 0; `final` = BFINAL (R270). -/
  | blkStored (final : Bool)
  /-- block header, BTYPE = 1 (R270). -/
  | blkFixed (final : Bool)
  /-- block header, BTYPE = 2 (R270). -/
  | blkDynamic (final : Bool)
  /-- block header, BTYPE = 3: invalid_block_code (R270). -/
  | blkReserved (final : Bool)
  -- STORED: the fields of a stored block
  /-- LEN of a stored block (R272). -/
  | len16 (v : BitVec 16)
  /-- NLEN of a stored block, present when STORED_NLEN = CHECKED (R273). -/
  | nlen16 (v : BitVec 16)
  /-- one byte of a stored block (R274). -/
  | storedByte (b : Byte)
  -- DYN: the fixed fields of a dynamic header
  /-- the LL code count less 257 (R300). -/
  | hlit5 (v : BitVec 5)
  /-- the D code count less 1 (R301). -/
  | hdist5 (v : BitVec 5)
  /-- the code-length-code count less 4 (R302). -/
  | hclen4 (v : BitVec 4)
  /-- one code-length-code length (R303). -/
  | cll3 (v : BitVec 3)
  -- CLSYM: code-length symbols
  /-- CL symbol 0: the next code length is 0 (R305). -/
  | clLen0
  /-- CL symbol 1: the next code length is 1 (R305). -/
  | clLen1
  /-- CL symbol 2: the next code length is 2 (R305). -/
  | clLen2
  /-- CL symbol 3: the next code length is 3 (R305). -/
  | clLen3
  /-- CL symbol 4: the next code length is 4 (R305). -/
  | clLen4
  /-- CL symbol 5: the next code length is 5 (R305). -/
  | clLen5
  /-- CL symbol 6: the next code length is 6 (R305). -/
  | clLen6
  /-- CL symbol 7: the next code length is 7 (R305). -/
  | clLen7
  /-- CL symbol 8: the next code length is 8 (R305). -/
  | clLen8
  /-- CL symbol 9: the next code length is 9 (R305). -/
  | clLen9
  /-- CL symbol 10: the next code length is 10 (R305). -/
  | clLen10
  /-- CL symbol 11: the next code length is 11 (R305). -/
  | clLen11
  /-- CL symbol 12: the next code length is 12 (R305). -/
  | clLen12
  /-- CL symbol 13: the next code length is 13 (R305). -/
  | clLen13
  /-- CL symbol 14: the next code length is 14 (R305). -/
  | clLen14
  /-- CL symbol 15: the next code length is 15 (R305). -/
  | clLen15
  /-- CL symbol 16: repeat LAST_LEN 3 + `x` times (R305, R306). -/
  | rep16 (x : BitVec 2)
  /-- CL symbol 17: 3 + `x` zero lengths (R306). -/
  | zero17 (x : BitVec 3)
  /-- CL symbol 18: 11 + `x` zero lengths (R306). -/
  | zero18 (x : BitVec 7)
  -- LLSYM: literal/length symbols
  /-- LL symbols 0..255: the literal byte `b` (R343). -/
  | lit (b : Byte)
  /-- LL symbol 256: end of block (R343). -/
  | eob
  /-- LL symbol 257: length 3 (R129, R344). -/
  | len257
  /-- LL symbol 258: length 4 (R129, R344). -/
  | len258
  /-- LL symbol 259: length 5 (R129, R344). -/
  | len259
  /-- LL symbol 260: length 6 (R129, R344). -/
  | len260
  /-- LL symbol 261: length 7 (R129, R344). -/
  | len261
  /-- LL symbol 262: length 8 (R129, R344). -/
  | len262
  /-- LL symbol 263: length 9 (R129, R344). -/
  | len263
  /-- LL symbol 264: length 10 (R129, R344). -/
  | len264
  /-- LL symbol 265: length 11 + `x` (R129, R344). -/
  | len265 (x : BitVec 1)
  /-- LL symbol 266: length 13 + `x` (R129, R344). -/
  | len266 (x : BitVec 1)
  /-- LL symbol 267: length 15 + `x` (R129, R344). -/
  | len267 (x : BitVec 1)
  /-- LL symbol 268: length 17 + `x` (R129, R344). -/
  | len268 (x : BitVec 1)
  /-- LL symbol 269: length 19 + `x` (R129, R344). -/
  | len269 (x : BitVec 2)
  /-- LL symbol 270: length 23 + `x` (R129, R344). -/
  | len270 (x : BitVec 2)
  /-- LL symbol 271: length 27 + `x` (R129, R344). -/
  | len271 (x : BitVec 2)
  /-- LL symbol 272: length 31 + `x` (R129, R344). -/
  | len272 (x : BitVec 2)
  /-- LL symbol 273: length 35 + `x` (R129, R344). -/
  | len273 (x : BitVec 3)
  /-- LL symbol 274: length 43 + `x` (R129, R344). -/
  | len274 (x : BitVec 3)
  /-- LL symbol 275: length 51 + `x` (R129, R344). -/
  | len275 (x : BitVec 3)
  /-- LL symbol 276: length 59 + `x` (R129, R344). -/
  | len276 (x : BitVec 3)
  /-- LL symbol 277: length 67 + `x` (R129, R344). -/
  | len277 (x : BitVec 4)
  /-- LL symbol 278: length 83 + `x` (R129, R344). -/
  | len278 (x : BitVec 4)
  /-- LL symbol 279: length 99 + `x` (R129, R344). -/
  | len279 (x : BitVec 4)
  /-- LL symbol 280: length 115 + `x` (R129, R344). -/
  | len280 (x : BitVec 4)
  /-- LL symbol 281: length 131 + `x` (R129, R344). -/
  | len281 (x : BitVec 5)
  /-- LL symbol 282: length 163 + `x` (R129, R344). -/
  | len282 (x : BitVec 5)
  /-- LL symbol 283: length 195 + `x` (R129, R344). -/
  | len283 (x : BitVec 5)
  /-- LL symbol 284: length 227 + `x` (R129, R344). -/
  | len284 (x : BitVec 5)
  /-- LL symbol 285: length 258 (R129, R344). -/
  | len285
  /-- LL symbol 286: invalid_symbol (R343). -/
  | llInvalid286
  /-- LL symbol 287: invalid_symbol (R343). -/
  | llInvalid287
  -- DSYM: distance symbols
  /-- D symbol 0: distance 1 (R130, R346). -/
  | dist0
  /-- D symbol 1: distance 2 (R130, R346). -/
  | dist1
  /-- D symbol 2: distance 3 (R130, R346). -/
  | dist2
  /-- D symbol 3: distance 4 (R130, R346). -/
  | dist3
  /-- D symbol 4: distance 5 + `x` (R130, R346). -/
  | dist4 (x : BitVec 1)
  /-- D symbol 5: distance 7 + `x` (R130, R346). -/
  | dist5 (x : BitVec 1)
  /-- D symbol 6: distance 9 + `x` (R130, R346). -/
  | dist6 (x : BitVec 2)
  /-- D symbol 7: distance 13 + `x` (R130, R346). -/
  | dist7 (x : BitVec 2)
  /-- D symbol 8: distance 17 + `x` (R130, R346). -/
  | dist8 (x : BitVec 3)
  /-- D symbol 9: distance 25 + `x` (R130, R346). -/
  | dist9 (x : BitVec 3)
  /-- D symbol 10: distance 33 + `x` (R130, R346). -/
  | dist10 (x : BitVec 4)
  /-- D symbol 11: distance 49 + `x` (R130, R346). -/
  | dist11 (x : BitVec 4)
  /-- D symbol 12: distance 65 + `x` (R130, R346). -/
  | dist12 (x : BitVec 5)
  /-- D symbol 13: distance 97 + `x` (R130, R346). -/
  | dist13 (x : BitVec 5)
  /-- D symbol 14: distance 129 + `x` (R130, R346). -/
  | dist14 (x : BitVec 6)
  /-- D symbol 15: distance 193 + `x` (R130, R346). -/
  | dist15 (x : BitVec 6)
  /-- D symbol 16: distance 257 + `x` (R130, R346). -/
  | dist16 (x : BitVec 7)
  /-- D symbol 17: distance 385 + `x` (R130, R346). -/
  | dist17 (x : BitVec 7)
  /-- D symbol 18: distance 513 + `x` (R130, R346). -/
  | dist18 (x : BitVec 8)
  /-- D symbol 19: distance 769 + `x` (R130, R346). -/
  | dist19 (x : BitVec 8)
  /-- D symbol 20: distance 1025 + `x` (R130, R346). -/
  | dist20 (x : BitVec 9)
  /-- D symbol 21: distance 1537 + `x` (R130, R346). -/
  | dist21 (x : BitVec 9)
  /-- D symbol 22: distance 2049 + `x` (R130, R346). -/
  | dist22 (x : BitVec 10)
  /-- D symbol 23: distance 3073 + `x` (R130, R346). -/
  | dist23 (x : BitVec 10)
  /-- D symbol 24: distance 4097 + `x` (R130, R346). -/
  | dist24 (x : BitVec 11)
  /-- D symbol 25: distance 6145 + `x` (R130, R346). -/
  | dist25 (x : BitVec 11)
  /-- D symbol 26: distance 8193 + `x` (R130, R346). -/
  | dist26 (x : BitVec 12)
  /-- D symbol 27: distance 12289 + `x` (R130, R346). -/
  | dist27 (x : BitVec 12)
  /-- D symbol 28: distance 16385 + `x` (R130, R346). -/
  | dist28 (x : BitVec 13)
  /-- D symbol 29: distance 24577 + `x` (R130, R346). -/
  | dist29 (x : BitVec 13)
  /-- D symbol 30: invalid_symbol (R345). -/
  | dInvalid30
  /-- D symbol 31: invalid_symbol (R345). -/
  | dInvalid31
  -- CMD32: host commands
  /-- start a stream over `span`; bits 3..6 of the word are PH, NLA, VND, OVR (R432). -/
  | cmdOpen (span : List Byte) (ph nla vnd ovr : Bool)
  /-- run the sequencer until it has something to report (R431). -/
  | cmdStep
  /-- hand over the next input span (R433). -/
  | cmdSupply (span : List Byte)
  /-- return BFINAL (R435). -/
  | cmdIsFinal
  /-- return the bytes and residual bits consumed (R436). -/
  | cmdPosition
  /-- return the CRC (R438). -/
  | cmdReadCrc
  /-- read byte `index` of the span handed over (R437). -/
  | cmdReadOut (index : BitVec 16)
  /-- CMD = 7, the word's bits 31:3 being `rest`: refused (R439). -/
  | cmdReserved (rest : BitVec 29)
  -- TAG5: the micro-operation STEP runs while TAG holds the code
  /-- TAG 0: power-on, no micro-operation (R600). -/
  | tagUnopened
  /-- the micro-operation ZHDR (R420). -/
  | tagZhdr
  /-- the micro-operation BHDR (R270). -/
  | tagBhdr
  /-- the micro-operation ST_LEN (R272). -/
  | tagStLen
  /-- the micro-operation ST_NLEN (R273). -/
  | tagStNlen
  /-- the micro-operation ST_COPY (R274). -/
  | tagStCopy
  /-- the micro-operation FX_BUILD (R276). -/
  | tagFxBuild
  /-- the micro-operation DY_HLIT (R300). -/
  | tagDyHlit
  /-- the micro-operation DY_HDIST (R301). -/
  | tagDyHdist
  /-- the micro-operation DY_HCLEN (R302). -/
  | tagDyHclen
  /-- the micro-operation DY_CLL (R303). -/
  | tagDyCll
  /-- the micro-operation DY_CLBUILD (R304). -/
  | tagDyClbuild
  /-- the micro-operation DY_LSYM (R305). -/
  | tagDyLsym
  /-- the micro-operation DY_LEXTRA (R306). -/
  | tagDyLextra
  /-- the micro-operation DY_BUILD (R307). -/
  | tagDyBuild
  /-- the micro-operation SYM (R343). -/
  | tagSym
  /-- the micro-operation LEN_EXTRA (R344). -/
  | tagLenExtra
  /-- the micro-operation DSYM (R345). -/
  | tagDsym
  /-- the micro-operation DIST_EXTRA (R346). -/
  | tagDistExtra
  /-- the micro-operation COPY (R347). -/
  | tagCopy
  /-- the micro-operation BLK_END (R278). -/
  | tagBlkEnd
  /-- the micro-operation FIN (R279). -/
  | tagFin
  /-- TAG 22: the stream is complete (R431). -/
  | tagDone
  /-- TAG 23: the stream met a fatal error (R503). -/
  | tagFailed
  /-- TAG 24 + `low`, never written: fatal invalid_state (R501). -/
  | tagReserved (low : BitVec 3)
  deriving DecidableEq, Repr

end Sys2Proof
end

