-- ==== Sys2Proof/Machine/Ops.lean ====
section
/-! DEFINITION. The shared operations: the outcome of a micro-step and what STEP does with it (00_scope.md R13,
46_zlib_header_and_host.md R431), the fatal entry (60_exceptions.md R503), the flush acknowledgement (R341), PUT (R340) and
CRC_UPDATE (R381). -/

namespace Sys2Proof.Machine

/-- The events that end a STEP with a non-error status (R13). -/
inductive Event where
  | blockComplete | outputFull
  deriving DecidableEq, Repr

/-- The STATUS code of an event (R42). -/
def eventStatus : Event → BitVec 3
  | .blockComplete => Status.blockComplete
  | .outputFull => Status.outputFull

/-- The outcome of a micro-step (R13), each with the state it leaves; or the stop of a read that has no value (R46). -/
inductive Micro where
  | cont (s : State)
  | event (e : Event) (s : State)
  | suspend (s : State)
  | raise (k : ErrKind) (s : State)
  | stop (f : Fault)
  deriving DecidableEq, Repr

/-- The response word built from the registers, with a given STATUS (R136). -/
def responseOf (status : BitVec 3) (s : State) : Response :=
  .word (responseWord status s.errKind s.huffReason s.outLen)

/-- Error(invalid_state) answered on a terminal TAG: built from constants, and nothing is stored (R431, R433). -/
def invalidStateResponse : Response := .word (responseWord Status.error (errCode .invalidState) 0#2 0#16)

/-- The end of a STEP with a non-error status: STATUS is written and the response returned (R431). -/
def endStep (status : BitVec 3) (s : State) : State :=
  { s with status := status, stepping := false, response := responseOf status s }

/-- fatal(k), the fatal-error entry: TAG, ERR_KIND and STATUS are written, and the STEP or SUPPLY in progress answers the
error (R503). -/
def fatal (k : ErrKind) (s : State) : State :=
  { s with
    tag := Tag.failed
    errKind := errCode k
    status := Status.error
    stepping := false
    response := .word (responseWord Status.error (errCode k) s.huffReason s.outLen) }

/-- After a micro-step that returned `continue`: YIELD is drawn. When it is true, STEP returns Progress; when it is false,
the STEP in progress goes on (R9, R431, R434). -/
def afterContinue (s : State) : State :=
  let y := Config.yieldDraw s.draws
  { s with
    status := bif y then Status.progress else s.status
    stepping := s.stepping && !y
    response := bif y then responseOf Status.progress s else s.response
    draws := s.draws + 1 }

/-- What STEP does with the outcome of a micro-step (R431). -/
def finish : Micro → Host.Outcome State Fault Refusal
  | .cont s => .next (afterContinue s)
  | .event e s => .next (endStep (eventStatus e) s)
  | .suspend s => .next (endStep Status.needMoreInput s)
  | .raise k s => .next (fatal k s)
  | .stop f => .fault f

/-- A refused command: it changes no state and returns nothing, an explicit `refused` on the port (R430, R439). -/
def refuse (s : State) : State := { s with response := .refused }

/-- The flush acknowledgement at the entry of a STEP (R341). -/
def ackFlush (s : State) : State :=
  if s.flushPending then { s with wpos := 0#16, outLen := 0#16, flushPending := false } else s

/-- CRC_UPDATE(b) on the CRC register (R381). -/
def crcUpdate (crc : BitVec 32) (b : Byte) : BitVec 32 :=
  romCrc ((crc ^^^ b.setWidth 32).setWidth 8) ^^^ (crc >>> 8)

/-- HIST after one more byte: saturated at 32768 (R39, R340). -/
def histBump (h : BitVec 16) : BitVec 16 := BitVec.ofNat 16 (min (h.toNat + 1) Config.winSize)

/-- The registers and WIN after a byte is put at WPOS (R340, lines 1 to 3). -/
def putByte (v : Byte) (s : State) : State :=
  { s with
    win := Memory.write s.win s.wpos.toNat v
    wpos := s.wpos + 1#16
    hist := histBump s.hist
    crc := crcUpdate s.crc v }

/-- PUT(v): produce one output byte; the window that fills is handed over (R340). -/
def put (v : Byte) (s : State) : Micro :=
  if Config.winSize ≤ s.wpos.toNat then .stop .winOutside
  else if s.wpos.toNat + 1 = Config.winSize then
    .event .outputFull { putByte v s with outLen := 32768#16, flushPending := true }
  else .cont (putByte v s)

/-- The index in WIN of the byte produced `d` bytes before the next one: (WPOS − d) mod 32768 (R342). -/
def winIndex (wpos d : BitVec 16) : Nat := (wpos - d).toNat % Config.winSize

end Sys2Proof.Machine
end

