-- ==== Sys2Proof/Machine/Huffman.lean ====
section
/-! DEFINITION. BUILD, the decode-table builder (41_huffman.md R230 to R239). A list of code lengths stands for L[0..n−1]. -/

namespace Sys2Proof.Machine

/-- cnt[i], the number of symbols of length `i` (R231). -/
def lenCount (ls : List Nat) (i : Nat) : Nat := ls.count i

/-- total, the number of used symbols (R231). -/
def usedCount (ls : List Nat) : Nat := ls.countP (fun l => decide (1 ≤ l ∧ l ≤ 15))

/-- first[i], the canonical code of the first symbol of length `i` (R234). -/
def firstCode (ls : List Nat) : Nat → Nat
  | 0 => 0
  | 1 => 0
  | n + 2 => (firstCode ls (n + 1) + lenCount ls (n + 1)) * 2

/-- The symbols of length `i`, ascending; `s` is the number of the list's first symbol (R236). -/
def symbolsFrom (s : Nat) (i : Nat) : List Nat → List Nat
  | [] => []
  | l :: ls => if l = i then s :: symbolsFrom (s + 1) i ls else symbolsFrom (s + 1) i ls

/-- The leaf entries of level `i` (R236). -/
def leavesAt (ls : List Nat) (i : Nat) : List Entry := (symbolsFrom 0 i ls).map (BitVec.ofNat 16)

/-- `n` internal entries, the first pointing at `next`, each at the next pair (R236). -/
def internals : Nat → Nat → List Entry
  | 0, _ => []
  | n + 1, next => (~~~(BitVec.ofNat 16 next)) :: internals n (next + 2)

/-- The entries of level `i`, whose first index is `idx`: the leaves in symbol order, then the internal entries for codes
next_code..2^i − 1 (R236). -/
def levelEntries (ls : List Nat) (i idx : Nat) : List Entry :=
  leavesAt ls i ++
    internals (2 ^ i - (firstCode ls i + lenCount ls i)) (idx + (2 ^ i - firstCode ls i))

/-- The entries of `n` levels from level `i` on, whose first index is `idx` (R236). -/
def levelsFrom (ls : List Nat) : Nat → Nat → Nat → List Entry
  | 0, _, _ => []
  | n + 1, i, idx => levelEntries ls i idx ++ levelsFrom ls n (i + 1) (idx + (2 ^ i - firstCode ls i))

/-- The table of R236, breadth-first from level 1 at index 0. -/
def tableEntries (ls : List Nat) : List Entry := levelsFrom ls 15 1 0

/-- Some length's code range overflows its bit budget (R234). -/
def oversubscribed (ls : List Nat) : Bool :=
  (List.range 15).any (fun i => decide (2 ^ (i + 1) < firstCode ls (i + 1) + lenCount ls (i + 1)))

/-- The length-15 code range does not fill 32768 codes (R235). -/
def incomplete (ls : List Nat) : Bool := decide (firstCode ls 15 + lenCount ls 15 ≠ 32768)

/-- The unique used symbol of a one-symbol alphabet (R233). -/
def onlySymbol (ls : List Nat) : Nat := ls.findIdx (fun l => decide (1 ≤ l ∧ l ≤ 15))

/-- What BUILD returns (R230). -/
inductive Built where
  /-- ok(empty = 1): no used symbol, and T is not written -/
  | empty
  /-- ok(empty = 0): the entries written at T[0], T[1], … -/
  | table (es : List Entry)
  /-- fail(reason): T is not written -/
  | fail (r : HuffReason)
  deriving DecidableEq, Repr

/-- BUILD(n, L, allow_empty, T), the steps of R231 to R236 in order. -/
def build (ls : List Nat) (allowEmpty : Bool) : Built :=
  if usedCount ls = 0 then (if allowEmpty then .empty else .fail .noSymbols)
  else if usedCount ls = 1 then .table [BitVec.ofNat 16 (onlySymbol ls), BitVec.ofNat 16 (onlySymbol ls)]
  else if oversubscribed ls then .fail .tooManySymbols
  else if incomplete ls then .fail .incompleteTree
  else .table (tableEntries ls)

/-- The table after a build: its written entries are a run from T[0]; an empty build leaves it (R230, R232). -/
def builtTable (b : Built) (t : Memory Entry) : Memory Entry :=
  match b with
  | .table es => Memory.writeBlock t 0 es
  | .empty => t
  | .fail _ => t

/-- A micro-step that goes on with a build that succeeded; a build that fails sets HUFF_REASON and raises
huffman_table_gen_failed (R239). -/
def withBuild (b : Built) (s : State) (go : State → Micro) : Micro :=
  match b with
  | .fail r => .raise .huffmanTableGenFailed { s with huffReason := huffCode r }
  | .table _ => go s
  | .empty => go s

end Sys2Proof.Machine
end

