-- ==== Sys2Proof/Machine/Operands.lean ====
section
/-! DEFINITION. The bit reader and the symbol walker, through which every micro-operation reads its operands: PULL, PEEK,
READ, DROP, ALIGN and the POSITION value (40_bit_reader.md R200 to R209), DECODE (41_huffman.md R240). -/

namespace Sys2Proof.Machine

/-- The bits of a byte in stream order, least significant first (R85, R201). -/
def byteBits (b : Byte) : List Bool :=
  [b.getLsbD 0, b.getLsbD 1, b.getLsbD 2, b.getLsbD 3, b.getLsbD 4, b.getLsbD 5, b.getLsbD 6, b.getLsbD 7]

/-- The number Σ bit_k · 2^k of a run of stream bits, the first bit being bit 0 (R12). -/
def bitsValue : List Bool → Nat
  | [] => 0
  | b :: bs => b.toNat + 2 * bitsValue bs

/-- The first `n` bits of a number, bit 0 first. -/
def valueBits : Nat → Nat → List Bool
  | 0, _ => []
  | n + 1, v => decide (v % 2 = 1) :: valueBits n (v / 2)

/-- PULL's loop over the unread bytes: the accumulator it leaves and the number of bytes it pulled (R201). -/
def pullBytes (n : Nat) : List Byte → List Bool → List Bool × Nat
  | [], acc => (acc, 0)
  | b :: bs, acc =>
    if acc.length < n then ((pullBytes n bs (acc ++ byteBits b)).1, (pullBytes n bs (acc ++ byteBits b)).2 + 1)
    else (acc, 0)

/-- PULL(n): move whole bytes into ACC while NBITS < n and the span has bytes (R201). -/
def pull (n : Nat) (s : State) : State :=
  let r := pullBytes n (s.span.drop s.ipos) s.acc
  { s with acc := r.1, ipos := s.ipos + r.2, inTotal := s.inTotal + BitVec.ofNat 64 r.2 }

/-- DROP(n): consume n buffered bits (R204). -/
def drop (n : Nat) (s : State) : State := { s with acc := s.acc.drop n }

/-- ALIGN(): drop to the next byte boundary (R205). -/
def align (s : State) : State := drop (s.acc.length % 8) s

/-- What a bit request gives (R202). -/
inductive Bits where
  /-- the n bits' value, and the state after the pull -/
  | got (v : Nat) (s : State)
  /-- fewer than n bits are buffered and the span is used up -/
  | short (s : State)
  /-- n > N_MAX -/
  | tooMany (s : State)
  deriving DecidableEq, Repr

/-- PEEK(n): the next n bits, none consumed (R202, R207). -/
def peek (n : Nat) (s : State) : Bits :=
  if Config.maxRequest < n then .tooMany s
  else if (pull n s).acc.length < n then .short (pull n s)
  else .got (bitsValue ((pull n s).acc.take n)) (pull n s)

/-- A micro-step that goes on with the value of PEEK(n): it suspends when the bits are missing (R202). -/
def withPeek (n : Nat) (s : State) (go : Nat → State → Micro) : Micro :=
  match peek n s with
  | .got v s1 => go v s1
  | .short s1 => .suspend s1
  | .tooMany s1 => .raise .invalidParameter s1

/-- A micro-step that goes on with the value of READ(n), the n bits consumed (R203). -/
def withRead (n : Nat) (s : State) (go : Nat → State → Micro) : Micro :=
  withPeek n s (fun v s1 => go v (drop n s1))

/-- What DECODE gives (R240). -/
inductive Walk where
  /-- a leaf: its symbol, and the state with the code's bits consumed -/
  | leaf (v : Nat) (s : State)
  /-- the next bit is missing: nothing is consumed -/
  | short (s : State)
  /-- 15 bits and no leaf -/
  | noLeaf (s : State)
  /-- an entry that holds no value -/
  | hole
  deriving DecidableEq, Repr

/-- DECODE's loop from the `n`-th code bit on, at table index `idx` (R240). -/
def walkFrom (t : Memory Entry) : Nat → Nat → Nat → State → Walk
  | 0, _, _, s => .noLeaf s
  | fuel + 1, n, idx, s =>
    match peek n s with
    | .tooMany s1 => .noLeaf s1
    | .short s1 => .short s1
    | .got v s1 =>
      match Memory.read t (idx + v / 2 ^ (n - 1)) with
      | none => .hole
      | some e => if e.msb then walkFrom t fuel (n + 1) (~~~e).toNat s1 else .leaf e.toNat (drop n s1)

/-- DECODE(T): one symbol of table `t`, at most 15 code bits (R240). -/
def walk (t : Memory Entry) (s : State) : Walk := walkFrom t Config.maxCodeLen 1 0 s

/-- A micro-step that goes on with the symbol of DECODE(T) (R240). -/
def withSymbol (t : Memory Entry) (s : State) (go : Nat → State → Micro) : Micro :=
  match walk t s with
  | .leaf v s1 => go v s1
  | .short s1 => .suspend s1
  | .noLeaf s1 => .raise .invalidState s1
  | .hole => .stop .tableUnwritten

/-- POSITION's c = 8·IN_TOTAL − NBITS, on 67 bits (R206). -/
def positionBits (s : State) : BitVec 67 := ((s.inTotal.setWidth 67) <<< 3) - BitVec.ofNat 67 s.acc.length

/-- c div 8 (R206). -/
def positionBytes (s : State) : BitVec 64 := (positionBits s).extractLsb' 3 64

/-- c mod 8 (R206). -/
def positionResidual (s : State) : BitVec 3 := (positionBits s).setWidth 3

end Sys2Proof.Machine
end

