-- ==== Sys2Proof/Machine/Block.lean ====
section
/-! DEFINITION. Block headers, stored blocks, the fixed tables and the end of a block: the BHDR3 and STORED rows and the
micro-operations BHDR, ST_LEN, ST_NLEN, ST_COPY, FX_BUILD, BLK_END and FIN (42_block_header_stored.md). The rows act on the
state in which their bits have been consumed. -/

namespace Sys2Proof.Machine

/-- BFINAL and BTYPE are written by one read (R270). -/
def setHeader (final : Bool) (btype : BitVec 2) (s : State) : State := { s with bfinal := final, btype := btype }

/-- BTYPE = 0: ALIGN, then the stored block's LEN (R270). -/
def blkStoredAct (final : Bool) (s : State) : Micro := .cont { align (setHeader final 0#2 s) with tag := Tag.stLen }

/-- BTYPE = 1 (R270). -/
def blkFixedAct (final : Bool) (s : State) : Micro := .cont { setHeader final 1#2 s with tag := Tag.fxBuild }

/-- BTYPE = 2 (R270). -/
def blkDynamicAct (final : Bool) (s : State) : Micro := .cont { setHeader final 2#2 s with tag := Tag.dyHlit }

/-- BTYPE = 3: BFINAL is written before the error is raised (R270). -/
def blkReservedAct (final : Bool) (s : State) : Micro := .raise .invalidBlockCode (setHeader final 3#2 s)

/-- BHDR's choice on H = READ(3) (R270). -/
def bhdrAct (h : BitVec 3) (s : State) : Micro :=
  match (h.extractLsb' 1 2).toNat with
  | 0 => blkStoredAct (h.getLsbD 0) s
  | 1 => blkFixedAct (h.getLsbD 0) s
  | 2 => blkDynamicAct (h.getLsbD 0) s
  | _ => blkReservedAct (h.getLsbD 0) s

/-- BHDR (R270). A header of the VENDOR dialect has no meaning (R271); VENDOR is 0 after every OPEN (R601). -/
def bhdr (s : State) : Micro :=
  if s.vendor then .stop .vendorDialect else withRead 3 s (fun h s1 => bhdrAct (BitVec.ofNat 3 h) s1)

/-- REM and the next micro-operation once a stored block's length is accepted: an empty block ends at once (R272, R273,
R275). -/
def beginStored (s : State) : State :=
  { s with rem := s.storedLen, tag := if s.storedLen = 0#16 then Tag.blkEnd else Tag.stCopy }

/-- ST_LEN after READ(16) (R272). -/
def lenAct (v : BitVec 16) (s : State) : Micro :=
  if s.nlenChecked then .cont { s with storedLen := v, tag := Tag.stNlen }
  else .cont (beginStored { s with storedLen := v })

/-- ST_LEN (R272). -/
def stLen (s : State) : Micro := withRead 16 s (fun v s1 => lenAct (BitVec.ofNat 16 v) s1)

/-- ST_NLEN after READ(16) (R273). -/
def nlenAct (v : BitVec 16) (s : State) : Micro :=
  if nlenMatches s.storedLen v then .cont (beginStored s) else .raise .corruptStream s

/-- ST_NLEN (R273). -/
def stNlen (s : State) : Micro := withRead 16 s (fun v s1 => nlenAct (BitVec.ofNat 16 v) s1)

/-- One byte leaves REM; at 0 the sequencer goes to `next`, else TAG stays (R274, R347). -/
def countDown (next : BitVec 5) (s : State) : State :=
  { s with rem := s.rem - 1#16, tag := if s.rem - 1#16 = 0#16 then next else s.tag }

/-- ST_COPY after READ(8) (R274). -/
def storedByteAct (b : Byte) (s : State) : Micro := put b (countDown Tag.blkEnd s)

/-- ST_COPY (R274). -/
def stCopy (s : State) : Micro := withRead 8 s (fun v s1 => storedByteAct (BitVec.ofNat 8 v) s1)

/-- FX_BUILD (R276). -/
def fxBuild (s : State) : Micro :=
  withBuild (build romFixedLL false) s fun s1 =>
    withBuild (build romFixedD true) { s1 with tLL := builtTable (build romFixedLL false) s1.tLL } fun s2 =>
      .cont { s2 with tD := builtTable (build romFixedD true) s2.tD, dEmpty := false, tag := Tag.sym }

/-- BLK_END (R278). -/
def blkEnd (s : State) : Micro :=
  if s.bfinal then
    if s.wpos = 0#16 then .event .blockComplete { s with tag := Tag.done }
    else .event .outputFull { s with outLen := s.wpos, flushPending := true, tag := Tag.fin }
  else .event .blockComplete { s with tag := Tag.bhdr }

/-- FIN (R279). -/
def fin (s : State) : Micro := .event .blockComplete { s with tag := Tag.done }

/-- BLK_STORED (R270). -/
def execBlkStored (final : Bool) (s : State) : Host.Outcome State Fault Refusal := finish (blkStoredAct final s)

/-- BLK_FIXED (R270). -/
def execBlkFixed (final : Bool) (s : State) : Host.Outcome State Fault Refusal := finish (blkFixedAct final s)

/-- BLK_DYNAMIC (R270). -/
def execBlkDynamic (final : Bool) (s : State) : Host.Outcome State Fault Refusal := finish (blkDynamicAct final s)

/-- BLK_RESERVED (R270). -/
def execBlkReserved (final : Bool) (s : State) : Host.Outcome State Fault Refusal := finish (blkReservedAct final s)

/-- LEN16 (R272). -/
def execLen16 (v : BitVec 16) (s : State) : Host.Outcome State Fault Refusal := finish (lenAct v s)

/-- NLEN16 (R273). -/
def execNlen16 (v : BitVec 16) (s : State) : Host.Outcome State Fault Refusal := finish (nlenAct v s)

/-- STORED_BYTE (R274). -/
def execStoredByte (b : Byte) (s : State) : Host.Outcome State Fault Refusal := finish (storedByteAct b s)

/-- TAG_BHDR: the micro-operation BHDR (R270). -/
def execTagBhdr (s : State) : Host.Outcome State Fault Refusal := finish (bhdr s)

/-- TAG_ST_LEN: the micro-operation ST_LEN (R272). -/
def execTagStLen (s : State) : Host.Outcome State Fault Refusal := finish (stLen s)

/-- TAG_ST_NLEN: the micro-operation ST_NLEN (R273). -/
def execTagStNlen (s : State) : Host.Outcome State Fault Refusal := finish (stNlen s)

/-- TAG_ST_COPY: the micro-operation ST_COPY (R274). -/
def execTagStCopy (s : State) : Host.Outcome State Fault Refusal := finish (stCopy s)

/-- TAG_FX_BUILD: the micro-operation FX_BUILD (R276). -/
def execTagFxBuild (s : State) : Host.Outcome State Fault Refusal := finish (fxBuild s)

/-- TAG_BLK_END: the micro-operation BLK_END (R278). -/
def execTagBlkEnd (s : State) : Host.Outcome State Fault Refusal := finish (blkEnd s)

/-- TAG_FIN: the micro-operation FIN (R279). -/
def execTagFin (s : State) : Host.Outcome State Fault Refusal := finish (fin s)

end Sys2Proof.Machine
end

