-- ==== Sys2Proof/Machine/Commands.lean ====
section
/-! DEFINITION. The host commands (46_zlib_header_and_host.md R430 to R439) and the TAG5 rows that name no micro-operation:
UNOPENED, DONE, FAILED and the reserved codes. A refused command is a next state that differs in the response alone. -/

namespace Sys2Proof.Machine

/-- The registers OPEN sets (R432, R601); every other register and memory is left unchanged. -/
def openStream (span : List Byte) (ph nla ovr : Bool) (s : State) : State :=
  { s with
    tag := if ph then Tag.zhdr else Tag.bhdr
    parseHeader := ph
    nlenChecked := !nla
    rejectOversize := ovr
    vendor := false
    span := span
    ipos := 0
    acc := []
    inTotal := 0#64
    bfinal := false
    wpos := 0#16
    hist := 0#16
    outLen := 0#16
    flushPending := false
    crc := 0xFFFFFFFF#32
    status := Status.none
    errKind := 0#4
    huffReason := 0#2
    stepping := false
    response := .word (responseWord Status.none 0#4 0#2 0#16) }

/-- OPEN: accepted in every TAG; VND = 1 is refused (R432, R439). -/
def execOpen (span : List Byte) (ph nla vnd ovr : Bool) (s : State) : Host.Outcome State Fault Refusal :=
  .next (if vnd then refuse s else openStream span ph nla ovr s)

/-- The answer Error(invalid_state) of STEP or SUPPLY on a terminal TAG: no register changes (R431, R433). -/
def rejectState (s : State) : State := { s with stepping := false, response := invalidStateResponse }

/-- STEP accepted: the pending flush is acknowledged and the sequencer runs (R341, R431). -/
def beginStep (s : State) : State := { ackFlush s with stepping := true }

/-- STEP: the lines of R431 before its loop. The loop is `step` itself: while `stepping` holds, each step of the machine is
one micro-step, until one ends the STEP. -/
def execStep (s : State) : Host.Outcome State Fault Refusal :=
  .next (if tagTerminal s.tag then rejectState s
    else if tagReserved s.tag then fatal .invalidState s
    else beginStep s)

/-- SUPPLY (R433). -/
def execSupply (span : List Byte) (s : State) : Host.Outcome State Fault Refusal :=
  .next (if tagTerminal s.tag then rejectState s
    else if s.ipos < s.span.length then fatal .invalidParameter s
    else { s with span := span, ipos := 0, response := responseOf Status.none s })

/-- One more draw is spent (R9). -/
def spendDraw (s : State) : State := { s with draws := s.draws + 1 }

/-- IS_FINAL: BFINAL; any value in FAILED; refused in UNOPENED (R435, R504). -/
def execIsFinal (s : State) : Host.Outcome State Fault Refusal :=
  .next (if s.tag = Tag.unopened then refuse s
    else if s.tag = Tag.failed then { spendDraw s with response := .final (Config.freeFinal s.draws) }
    else { s with response := .final s.bfinal })

/-- POSITION: the value of R206; any value in FAILED; refused in UNOPENED (R436, R504). -/
def execPosition (s : State) : Host.Outcome State Fault Refusal :=
  .next (if s.tag = Tag.unopened then refuse s
    else if s.tag = Tag.failed then
      { spendDraw s with response := .position (Config.freePosBytes s.draws) (Config.freePosBits s.draws) }
    else { s with response := .position (positionBytes s) (positionResidual s) })

/-- READ_OUT(i): a byte of the span just handed over, else refused (R437). -/
def execReadOut (index : BitVec 16) (s : State) : Host.Outcome State Fault Refusal :=
  if s.flushPending && s.tag != Tag.unopened && s.tag != Tag.failed && decide (index.toNat < s.outLen.toNat) then
    match Memory.read s.win index.toNat with
    | some b => .next { s with response := .outByte b }
    | none => .fault .winUnwritten
  else .next (refuse s)

/-- READ_CRC: CRC ^ 0xFFFFFFFF in DONE; refused in UNOPENED; any value in every other TAG (R383, R438). -/
def execReadCrc (s : State) : Host.Outcome State Fault Refusal :=
  .next (if s.tag = Tag.unopened then refuse s
    else if s.tag = Tag.done then { s with response := .crc (s.crc ^^^ 0xFFFFFFFF#32) }
    else { spendDraw s with response := .crc (Config.freeCrc s.draws) })

/-- CMD = 7: refused (R439). -/
def execReserved (_rest : BitVec 29) (s : State) : Host.Outcome State Fault Refusal := .next (refuse s)

/-- TAG_UNOPENED: a STEP answers Error(invalid_state) (R431, R600). -/
def execTagUnopened (s : State) : Host.Outcome State Fault Refusal := .next (rejectState s)

/-- TAG_DONE: a STEP answers Error(invalid_state) (R431). -/
def execTagDone (s : State) : Host.Outcome State Fault Refusal := .next (rejectState s)

/-- TAG_FAILED: a STEP answers Error(invalid_state) (R431, R503). -/
def execTagFailed (s : State) : Host.Outcome State Fault Refusal := .next (rejectState s)

/-- TAG_RESERVED: a STEP enters fatal(invalid_state) (R431, R501). -/
def execTagReserved (_low : BitVec 3) (s : State) : Host.Outcome State Fault Refusal := .next (fatal .invalidState s)

end Sys2Proof.Machine
end

