-- ==== Sys2Proof/Machine/Dynamic.lean ====
section
/-! DEFINITION. The dynamic header: the DYN and CLSYM rows and the micro-operations DY_HLIT to DY_BUILD
(43_dynamic_tables.md). The rows act on the state in which their bits, the extra bits included, have been consumed. -/

namespace Sys2Proof.Machine

/-- DY_HLIT after READ(5) (R300, R309). -/
def hlitAct (v : BitVec 5) (s : State) : Micro :=
  if s.rejectOversize && decide (286 < v.toNat + 257) then
    .raise .invalidSymbol { s with hlit := v.setWidth 9 + 257#9 }
  else .cont { s with hlit := v.setWidth 9 + 257#9, tag := Tag.dyHdist }

/-- DY_HLIT (R300). -/
def dyHlit (s : State) : Micro := withRead 5 s (fun v s1 => hlitAct (BitVec.ofNat 5 v) s1)

/-- DY_HDIST after READ(5) (R301, R309). -/
def hdistAct (v : BitVec 5) (s : State) : Micro :=
  if s.rejectOversize && decide (30 < v.toNat + 1) then
    .raise .invalidSymbol { s with hdist := v.setWidth 6 + 1#6 }
  else .cont { s with hdist := v.setWidth 6 + 1#6, tag := Tag.dyHclen }

/-- DY_HDIST (R301). -/
def dyHdist (s : State) : Micro := withRead 5 s (fun v s1 => hdistAct (BitVec.ofNat 5 v) s1)

/-- DY_HCLEN after READ(4): every CLENS entry is cleared (R302). -/
def hclenAct (v : BitVec 4) (s : State) : Micro :=
  .cont { s with
    hclen := v.setWidth 5 + 4#5
    k := 0#5
    clens := Memory.writeBlock s.clens 0 (List.replicate Config.clSyms 0#3)
    tag := Tag.dyCll }

/-- DY_HCLEN (R302). -/
def dyHclen (s : State) : Micro := withRead 4 s (fun v s1 => hclenAct (BitVec.ofNat 4 v) s1)

/-- DY_CLL after READ(3) (R303). -/
def cllAct (v : BitVec 3) (s : State) : Micro :=
  match romClOrder s.k.toNat with
  | none => .stop .romOutside
  | some sym =>
    .cont { s with
      clens := Memory.write s.clens sym v
      k := s.k + 1#5
      tag := if s.k + 1#5 = s.hclen then Tag.dyClbuild else s.tag }

/-- DY_CLL (R303). -/
def dyCll (s : State) : Micro := withRead 3 s (fun v s1 => cllAct (BitVec.ofNat 3 v) s1)

/-- DY_CLBUILD (R304). -/
def dyClbuild (s : State) : Micro :=
  match Memory.readBlock s.clens 0 Config.clSyms with
  | none => .stop .clensUnwritten
  | some ls =>
    withBuild (build (ls.map BitVec.toNat) false) s fun s1 =>
      .cont { s1 with
        tCL := builtTable (build (ls.map BitVec.toNat) false) s1.tCL
        j := 0#9
        lastLen := 0#4
        tag := Tag.dyLsym }

/-- HLIT + HDIST, the number of code lengths the header transmits (R310). -/
def lensWanted (s : State) : Nat := s.hlit.toNat + s.hdist.toNat

/-- A CL symbol 0..15: the next code length (R305). -/
def clLenAct (v : BitVec 4) (s : State) : Micro :=
  if Config.lensSize ≤ s.j.toNat then .stop .lensOutside
  else
    .cont { s with
      lens := Memory.write s.lens s.j.toNat v
      lastLen := v
      j := s.j + 1#9
      tag := if s.j.toNat + 1 = lensWanted s then Tag.dyBuild else s.tag }

/-- A CL symbol 16..18 awaits its extra bits (R305). -/
def awaitExtra (v : Nat) (s : State) : Micro := .cont { s with cur := BitVec.ofNat 9 v, tag := Tag.dyLextra }

/-- DY_LSYM's choice on the decoded symbol (R305). The CL alphabet ends at 18, so no built T_CL holds a larger one. -/
def lsymAct (v : Nat) (s : State) : Micro :=
  if v ≤ 15 then clLenAct (BitVec.ofNat 4 v) s
  else if 18 < v then .stop .clSymbolOutside
  else if v = 16 ∧ s.j = 0#9 then .raise .invalidSymbol s
  else awaitExtra v s

/-- DY_LSYM (R305). -/
def dyLsym (s : State) : Micro := withSymbol s.tCL s lsymAct

/-- Fill LENS with `n` copies of `v`; a run past HLIT + HDIST is an error (R306). -/
def fillLens (n : Nat) (v : BitVec 4) (s : State) : Micro :=
  if lensWanted s < s.j.toNat + n then .raise .invalidSymbol s
  else if Config.lensSize < s.j.toNat + n then .stop .lensOutside
  else
    .cont { s with
      lens := Memory.writeBlock s.lens s.j.toNat (List.replicate n v)
      j := s.j + BitVec.ofNat 9 n
      lastLen := v
      tag := if s.j.toNat + n = lensWanted s then Tag.dyBuild else Tag.dyLsym }

/-- DY_LEXTRA (R306). -/
def dyLextra (s : State) : Micro :=
  match s.cur.toNat with
  | 16 => withRead 2 s (fun x s1 => fillLens (3 + x) s1.lastLen s1)
  | 17 => withRead 3 s (fun x s1 => fillLens (3 + x) 0#4 s1)
  | 18 => withRead 7 s (fun x s1 => fillLens (11 + x) 0#4 s1)
  | _ => .stop .clSymbolOutside

/-- CL symbol 16 with its extra bits: at J = 0 there is no length to repeat (R305, R306). -/
def rep16Act (x : BitVec 2) (s : State) : Micro :=
  if s.j = 0#9 then .raise .invalidSymbol s else fillLens (3 + x.toNat) s.lastLen { s with cur := 16#9 }

/-- CL symbol 17 with its extra bits (R306). -/
def zero17Act (x : BitVec 3) (s : State) : Micro := fillLens (3 + x.toNat) 0#4 { s with cur := 17#9 }

/-- CL symbol 18 with its extra bits (R306). -/
def zero18Act (x : BitVec 7) (s : State) : Micro := fillLens (11 + x.toNat) 0#4 { s with cur := 18#9 }

/-- DY_BUILD: the LL build first, then the D build, which may be empty (R307, R506). -/
def dyBuild (s : State) : Micro :=
  match Memory.readBlock s.lens 0 s.hlit.toNat, Memory.readBlock s.lens s.hlit.toNat s.hdist.toNat with
  | some ll, some dl =>
    withBuild (build (ll.map BitVec.toNat) false) s fun s1 =>
      withBuild (build (dl.map BitVec.toNat) true)
          { s1 with tLL := builtTable (build (ll.map BitVec.toNat) false) s1.tLL } fun s2 =>
        .cont { s2 with
          tD := builtTable (build (dl.map BitVec.toNat) true) s2.tD
          dEmpty := build (dl.map BitVec.toNat) true == .empty
          tag := Tag.sym }
  | _, _ => .stop .lensUnwritten

/-- HLIT5 (R300). -/
def execHlit5 (v : BitVec 5) (s : State) : Host.Outcome State Fault Refusal := finish (hlitAct v s)

/-- HDIST5 (R301). -/
def execHdist5 (v : BitVec 5) (s : State) : Host.Outcome State Fault Refusal := finish (hdistAct v s)

/-- HCLEN4 (R302). -/
def execHclen4 (v : BitVec 4) (s : State) : Host.Outcome State Fault Refusal := finish (hclenAct v s)

/-- CLL3 (R303). -/
def execCll3 (v : BitVec 3) (s : State) : Host.Outcome State Fault Refusal := finish (cllAct v s)

/-- CL_LEN_0 (R305). -/
def execClLen0 (s : State) : Host.Outcome State Fault Refusal := finish (clLenAct 0#4 s)

/-- CL_LEN_1 (R305). -/
def execClLen1 (s : State) : Host.Outcome State Fault Refusal := finish (clLenAct 1#4 s)

/-- CL_LEN_2 (R305). -/
def execClLen2 (s : State) : Host.Outcome State Fault Refusal := finish (clLenAct 2#4 s)

/-- CL_LEN_3 (R305). -/
def execClLen3 (s : State) : Host.Outcome State Fault Refusal := finish (clLenAct 3#4 s)

/-- CL_LEN_4 (R305). -/
def execClLen4 (s : State) : Host.Outcome State Fault Refusal := finish (clLenAct 4#4 s)

/-- CL_LEN_5 (R305). -/
def execClLen5 (s : State) : Host.Outcome State Fault Refusal := finish (clLenAct 5#4 s)

/-- CL_LEN_6 (R305). -/
def execClLen6 (s : State) : Host.Outcome State Fault Refusal := finish (clLenAct 6#4 s)

/-- CL_LEN_7 (R305). -/
def execClLen7 (s : State) : Host.Outcome State Fault Refusal := finish (clLenAct 7#4 s)

/-- CL_LEN_8 (R305). -/
def execClLen8 (s : State) : Host.Outcome State Fault Refusal := finish (clLenAct 8#4 s)

/-- CL_LEN_9 (R305). -/
def execClLen9 (s : State) : Host.Outcome State Fault Refusal := finish (clLenAct 9#4 s)

/-- CL_LEN_10 (R305). -/
def execClLen10 (s : State) : Host.Outcome State Fault Refusal := finish (clLenAct 10#4 s)

/-- CL_LEN_11 (R305). -/
def execClLen11 (s : State) : Host.Outcome State Fault Refusal := finish (clLenAct 11#4 s)

/-- CL_LEN_12 (R305). -/
def execClLen12 (s : State) : Host.Outcome State Fault Refusal := finish (clLenAct 12#4 s)

/-- CL_LEN_13 (R305). -/
def execClLen13 (s : State) : Host.Outcome State Fault Refusal := finish (clLenAct 13#4 s)

/-- CL_LEN_14 (R305). -/
def execClLen14 (s : State) : Host.Outcome State Fault Refusal := finish (clLenAct 14#4 s)

/-- CL_LEN_15 (R305). -/
def execClLen15 (s : State) : Host.Outcome State Fault Refusal := finish (clLenAct 15#4 s)

/-- REP16 (R305, R306). -/
def execRep16 (x : BitVec 2) (s : State) : Host.Outcome State Fault Refusal := finish (rep16Act x s)

/-- ZERO17 (R306). -/
def execZero17 (x : BitVec 3) (s : State) : Host.Outcome State Fault Refusal := finish (zero17Act x s)

/-- ZERO18 (R306). -/
def execZero18 (x : BitVec 7) (s : State) : Host.Outcome State Fault Refusal := finish (zero18Act x s)

/-- TAG_DY_HLIT: the micro-operation DY_HLIT (R300). -/
def execTagDyHlit (s : State) : Host.Outcome State Fault Refusal := finish (dyHlit s)

/-- TAG_DY_HDIST: the micro-operation DY_HDIST (R301). -/
def execTagDyHdist (s : State) : Host.Outcome State Fault Refusal := finish (dyHdist s)

/-- TAG_DY_HCLEN: the micro-operation DY_HCLEN (R302). -/
def execTagDyHclen (s : State) : Host.Outcome State Fault Refusal := finish (dyHclen s)

/-- TAG_DY_CLL: the micro-operation DY_CLL (R303). -/
def execTagDyCll (s : State) : Host.Outcome State Fault Refusal := finish (dyCll s)

/-- TAG_DY_CLBUILD: the micro-operation DY_CLBUILD (R304). -/
def execTagDyClbuild (s : State) : Host.Outcome State Fault Refusal := finish (dyClbuild s)

/-- TAG_DY_LSYM: the micro-operation DY_LSYM (R305). -/
def execTagDyLsym (s : State) : Host.Outcome State Fault Refusal := finish (dyLsym s)

/-- TAG_DY_LEXTRA: the micro-operation DY_LEXTRA (R306). -/
def execTagDyLextra (s : State) : Host.Outcome State Fault Refusal := finish (dyLextra s)

/-- TAG_DY_BUILD: the micro-operation DY_BUILD (R307). -/
def execTagDyBuild (s : State) : Host.Outcome State Fault Refusal := finish (dyBuild s)

end Sys2Proof.Machine
end

