-- ==== Sys2Proof/Machine/Header.lean ====
section
/-! DEFINITION. The zlib-style header: the three ZHDR16 rows and the micro-operation ZHDR (R420 to R425). The rows act on
the state in which the 16 bits have been peeked, not consumed. -/

namespace Sys2Proof.Machine

/-- A header without FDICT: its 16 bits are dropped (R420). -/
def zlibHdrAct (s : State) : Micro := .cont { drop 16 s with tag := Tag.bhdr }

/-- A header with FDICT = 1 (R420, R422). -/
def zlibFdictAct (s : State) : Micro := .raise .customDictionary s

/-- Not a header: nothing is consumed (R425). -/
def rawNoHdrAct (s : State) : Micro := .cont { s with tag := Tag.bhdr }

/-- V = B0·256 + B1 from p = PEEK(16), whose bits 7:0 are B0 (R420, R421). -/
def headerValue (p : Nat) : BitVec 16 :=
  (BitVec.ofNat 16 p).extractLsb' 0 8 ++ (BitVec.ofNat 16 p).extractLsb' 8 8

/-- ZHDR's choice on V (R420). -/
def zhdrAct (v : BitVec 16) (s : State) : Micro :=
  if isZlibHeader v then (if hasFdict v then zlibFdictAct s else zlibHdrAct s) else rawNoHdrAct s

/-- ZHDR (R420). -/
def zhdr (s : State) : Micro := withPeek 16 s (fun p s1 => zhdrAct (headerValue p) s1)

/-- ZLIB_HDR (R420). -/
def execZlibHdr (_v : BitVec 16) (s : State) : Host.Outcome State Fault Refusal := finish (zlibHdrAct s)

/-- ZLIB_FDICT (R420, R422). -/
def execZlibFdict (_v : BitVec 16) (s : State) : Host.Outcome State Fault Refusal := finish (zlibFdictAct s)

/-- RAW_NO_HDR (R425). -/
def execRawNoHdr (_v : BitVec 16) (s : State) : Host.Outcome State Fault Refusal := finish (rawNoHdrAct s)

/-- TAG_ZHDR: the micro-operation ZHDR (R420). -/
def execTagZhdr (s : State) : Host.Outcome State Fault Refusal := finish (zhdr s)

end Sys2Proof.Machine
end

