-- ==== Sys2Proof/Machine/Symbols.lean ====
section
/-! DEFINITION. The symbol phase: the LLSYM and DSYM rows and the micro-operations SYM, LEN_EXTRA, DSYM, DIST_EXTRA and COPY
(44_symbols_lz77_window.md). The rows act on the state in which their code and extra bits have been consumed. -/

namespace Sys2Proof.Machine

/-- An LL symbol 0..255: the literal byte is put (R343). -/
def litAct (b : Byte) (s : State) : Micro := put b s

/-- LL symbol 256 (R343). -/
def eobAct (s : State) : Micro := .cont { s with tag := Tag.blkEnd }

/-- A symbol out of its range: invalid_symbol (R343, R345). -/
def badSymbolAct (s : State) : Micro := .raise .invalidSymbol s

/-- SYM's choice on the decoded symbol (R343). -/
def symAct (v : Nat) (s : State) : Micro :=
  if v < 256 then litAct (BitVec.ofNat 8 v) s
  else if v = 256 then eobAct s
  else if 285 < v then badSymbolAct s
  else .cont { s with cur := BitVec.ofNat 9 v, tag := Tag.lenExtra }

/-- SYM (R343). -/
def sym (s : State) : Micro := withSymbol s.tLL s symAct

/-- Length symbol `v` with extra bits `x`: MLEN = LBASE + X (R129, R344). -/
def lengthAct (v x : Nat) (s : State) : Micro :=
  match romLen v with
  | none => .stop .romOutside
  | some (b, _) => .cont { s with cur := BitVec.ofNat 9 v, mlen := BitVec.ofNat 9 (b + x), tag := Tag.dsym }

/-- LEN_EXTRA: the count of extra bits is CUR's (R344). -/
def lenExtra (s : State) : Micro :=
  match romLen s.cur.toNat with
  | none => .stop .romOutside
  | some (_, e) => withRead e s (fun x s1 => lengthAct s1.cur.toNat x s1)

/-- DSYM's choice on the decoded symbol (R345). -/
def dsymAct (v : Nat) (s : State) : Micro :=
  if Config.dValid ≤ v then badSymbolAct s else .cont { s with dsym := BitVec.ofNat 5 v, tag := Tag.distExtra }

/-- DSYM: an empty distance table is an error before any bit is read (R345, R506). -/
def dsym (s : State) : Micro := if s.dEmpty then .raise .invalidSymbol s else withSymbol s.tD s dsymAct

/-- Distance symbol `v` with extra bits `x`: DIST = DBASE + X, and it must not exceed HIST (R130, R346). -/
def distanceAct (v x : Nat) (s : State) : Micro :=
  match romDist v with
  | none => .stop .romOutside
  | some (b, _) =>
    if s.hist.toNat < b + x then
      .raise .invalidDistance { s with dsym := BitVec.ofNat 5 v, dist := BitVec.ofNat 16 (b + x) }
    else
      .cont { s with
        dsym := BitVec.ofNat 5 v
        dist := BitVec.ofNat 16 (b + x)
        rem := s.mlen.setWidth 16
        tag := Tag.copy }

/-- DIST_EXTRA: the count of extra bits is DSYM's (R346). -/
def distExtra (s : State) : Micro :=
  match romDist s.dsym.toNat with
  | none => .stop .romOutside
  | some (_, e) => withRead e s (fun x s1 => distanceAct s1.dsym.toNat x s1)

/-- One byte leaves REM; at 0 the sequencer goes back to SYM (R347). -/
def copyCount (s : State) : State :=
  { s with rem := s.rem - 1#16, tag := if s.rem - 1#16 = 0#16 then Tag.sym else s.tag }

/-- COPY: the source byte is read before PUT writes (R347). -/
def copy (s : State) : Micro :=
  match Memory.read s.win (winIndex s.wpos s.dist) with
  | none => .stop .winUnwritten
  | some v => put v (copyCount s)

/-- LIT (R343). -/
def execLit (b : Byte) (s : State) : Host.Outcome State Fault Refusal := finish (litAct b s)

/-- EOB (R343). -/
def execEob (s : State) : Host.Outcome State Fault Refusal := finish (eobAct s)

/-- LEN_257 (R129, R344). -/
def execLen257 (s : State) : Host.Outcome State Fault Refusal := finish (lengthAct 257 0 s)

/-- LEN_258 (R129, R344). -/
def execLen258 (s : State) : Host.Outcome State Fault Refusal := finish (lengthAct 258 0 s)

/-- LEN_259 (R129, R344). -/
def execLen259 (s : State) : Host.Outcome State Fault Refusal := finish (lengthAct 259 0 s)

/-- LEN_260 (R129, R344). -/
def execLen260 (s : State) : Host.Outcome State Fault Refusal := finish (lengthAct 260 0 s)

/-- LEN_261 (R129, R344). -/
def execLen261 (s : State) : Host.Outcome State Fault Refusal := finish (lengthAct 261 0 s)

/-- LEN_262 (R129, R344). -/
def execLen262 (s : State) : Host.Outcome State Fault Refusal := finish (lengthAct 262 0 s)

/-- LEN_263 (R129, R344). -/
def execLen263 (s : State) : Host.Outcome State Fault Refusal := finish (lengthAct 263 0 s)

/-- LEN_264 (R129, R344). -/
def execLen264 (s : State) : Host.Outcome State Fault Refusal := finish (lengthAct 264 0 s)

/-- LEN_265 (R129, R344). -/
def execLen265 (x : BitVec 1) (s : State) : Host.Outcome State Fault Refusal := finish (lengthAct 265 x.toNat s)

/-- LEN_266 (R129, R344). -/
def execLen266 (x : BitVec 1) (s : State) : Host.Outcome State Fault Refusal := finish (lengthAct 266 x.toNat s)

/-- LEN_267 (R129, R344). -/
def execLen267 (x : BitVec 1) (s : State) : Host.Outcome State Fault Refusal := finish (lengthAct 267 x.toNat s)

/-- LEN_268 (R129, R344). -/
def execLen268 (x : BitVec 1) (s : State) : Host.Outcome State Fault Refusal := finish (lengthAct 268 x.toNat s)

/-- LEN_269 (R129, R344). -/
def execLen269 (x : BitVec 2) (s : State) : Host.Outcome State Fault Refusal := finish (lengthAct 269 x.toNat s)

/-- LEN_270 (R129, R344). -/
def execLen270 (x : BitVec 2) (s : State) : Host.Outcome State Fault Refusal := finish (lengthAct 270 x.toNat s)

/-- LEN_271 (R129, R344). -/
def execLen271 (x : BitVec 2) (s : State) : Host.Outcome State Fault Refusal := finish (lengthAct 271 x.toNat s)

/-- LEN_272 (R129, R344). -/
def execLen272 (x : BitVec 2) (s : State) : Host.Outcome State Fault Refusal := finish (lengthAct 272 x.toNat s)

/-- LEN_273 (R129, R344). -/
def execLen273 (x : BitVec 3) (s : State) : Host.Outcome State Fault Refusal := finish (lengthAct 273 x.toNat s)

/-- LEN_274 (R129, R344). -/
def execLen274 (x : BitVec 3) (s : State) : Host.Outcome State Fault Refusal := finish (lengthAct 274 x.toNat s)

/-- LEN_275 (R129, R344). -/
def execLen275 (x : BitVec 3) (s : State) : Host.Outcome State Fault Refusal := finish (lengthAct 275 x.toNat s)

/-- LEN_276 (R129, R344). -/
def execLen276 (x : BitVec 3) (s : State) : Host.Outcome State Fault Refusal := finish (lengthAct 276 x.toNat s)

/-- LEN_277 (R129, R344). -/
def execLen277 (x : BitVec 4) (s : State) : Host.Outcome State Fault Refusal := finish (lengthAct 277 x.toNat s)

/-- LEN_278 (R129, R344). -/
def execLen278 (x : BitVec 4) (s : State) : Host.Outcome State Fault Refusal := finish (lengthAct 278 x.toNat s)

/-- LEN_279 (R129, R344). -/
def execLen279 (x : BitVec 4) (s : State) : Host.Outcome State Fault Refusal := finish (lengthAct 279 x.toNat s)

/-- LEN_280 (R129, R344). -/
def execLen280 (x : BitVec 4) (s : State) : Host.Outcome State Fault Refusal := finish (lengthAct 280 x.toNat s)

/-- LEN_281 (R129, R344). -/
def execLen281 (x : BitVec 5) (s : State) : Host.Outcome State Fault Refusal := finish (lengthAct 281 x.toNat s)

/-- LEN_282 (R129, R344). -/
def execLen282 (x : BitVec 5) (s : State) : Host.Outcome State Fault Refusal := finish (lengthAct 282 x.toNat s)

/-- LEN_283 (R129, R344). -/
def execLen283 (x : BitVec 5) (s : State) : Host.Outcome State Fault Refusal := finish (lengthAct 283 x.toNat s)

/-- LEN_284 (R129, R344). -/
def execLen284 (x : BitVec 5) (s : State) : Host.Outcome State Fault Refusal := finish (lengthAct 284 x.toNat s)

/-- LEN_285 (R129, R344). -/
def execLen285 (s : State) : Host.Outcome State Fault Refusal := finish (lengthAct 285 0 s)

/-- LL_INVALID_286 (R343). -/
def execLlInvalid286 (s : State) : Host.Outcome State Fault Refusal := finish (badSymbolAct s)

/-- LL_INVALID_287 (R343). -/
def execLlInvalid287 (s : State) : Host.Outcome State Fault Refusal := finish (badSymbolAct s)

/-- DIST_0 (R130, R346). -/
def execDist0 (s : State) : Host.Outcome State Fault Refusal := finish (distanceAct 0 0 s)

/-- DIST_1 (R130, R346). -/
def execDist1 (s : State) : Host.Outcome State Fault Refusal := finish (distanceAct 1 0 s)

/-- DIST_2 (R130, R346). -/
def execDist2 (s : State) : Host.Outcome State Fault Refusal := finish (distanceAct 2 0 s)

/-- DIST_3 (R130, R346). -/
def execDist3 (s : State) : Host.Outcome State Fault Refusal := finish (distanceAct 3 0 s)

/-- DIST_4 (R130, R346). -/
def execDist4 (x : BitVec 1) (s : State) : Host.Outcome State Fault Refusal := finish (distanceAct 4 x.toNat s)

/-- DIST_5 (R130, R346). -/
def execDist5 (x : BitVec 1) (s : State) : Host.Outcome State Fault Refusal := finish (distanceAct 5 x.toNat s)

/-- DIST_6 (R130, R346). -/
def execDist6 (x : BitVec 2) (s : State) : Host.Outcome State Fault Refusal := finish (distanceAct 6 x.toNat s)

/-- DIST_7 (R130, R346). -/
def execDist7 (x : BitVec 2) (s : State) : Host.Outcome State Fault Refusal := finish (distanceAct 7 x.toNat s)

/-- DIST_8 (R130, R346). -/
def execDist8 (x : BitVec 3) (s : State) : Host.Outcome State Fault Refusal := finish (distanceAct 8 x.toNat s)

/-- DIST_9 (R130, R346). -/
def execDist9 (x : BitVec 3) (s : State) : Host.Outcome State Fault Refusal := finish (distanceAct 9 x.toNat s)

/-- DIST_10 (R130, R346). -/
def execDist10 (x : BitVec 4) (s : State) : Host.Outcome State Fault Refusal := finish (distanceAct 10 x.toNat s)

/-- DIST_11 (R130, R346). -/
def execDist11 (x : BitVec 4) (s : State) : Host.Outcome State Fault Refusal := finish (distanceAct 11 x.toNat s)

/-- DIST_12 (R130, R346). -/
def execDist12 (x : BitVec 5) (s : State) : Host.Outcome State Fault Refusal := finish (distanceAct 12 x.toNat s)

/-- DIST_13 (R130, R346). -/
def execDist13 (x : BitVec 5) (s : State) : Host.Outcome State Fault Refusal := finish (distanceAct 13 x.toNat s)

/-- DIST_14 (R130, R346). -/
def execDist14 (x : BitVec 6) (s : State) : Host.Outcome State Fault Refusal := finish (distanceAct 14 x.toNat s)

/-- DIST_15 (R130, R346). -/
def execDist15 (x : BitVec 6) (s : State) : Host.Outcome State Fault Refusal := finish (distanceAct 15 x.toNat s)

/-- DIST_16 (R130, R346). -/
def execDist16 (x : BitVec 7) (s : State) : Host.Outcome State Fault Refusal := finish (distanceAct 16 x.toNat s)

/-- DIST_17 (R130, R346). -/
def execDist17 (x : BitVec 7) (s : State) : Host.Outcome State Fault Refusal := finish (distanceAct 17 x.toNat s)

/-- DIST_18 (R130, R346). -/
def execDist18 (x : BitVec 8) (s : State) : Host.Outcome State Fault Refusal := finish (distanceAct 18 x.toNat s)

/-- DIST_19 (R130, R346). -/
def execDist19 (x : BitVec 8) (s : State) : Host.Outcome State Fault Refusal := finish (distanceAct 19 x.toNat s)

/-- DIST_20 (R130, R346). -/
def execDist20 (x : BitVec 9) (s : State) : Host.Outcome State Fault Refusal := finish (distanceAct 20 x.toNat s)

/-- DIST_21 (R130, R346). -/
def execDist21 (x : BitVec 9) (s : State) : Host.Outcome State Fault Refusal := finish (distanceAct 21 x.toNat s)

/-- DIST_22 (R130, R346). -/
def execDist22 (x : BitVec 10) (s : State) : Host.Outcome State Fault Refusal := finish (distanceAct 22 x.toNat s)

/-- DIST_23 (R130, R346). -/
def execDist23 (x : BitVec 10) (s : State) : Host.Outcome State Fault Refusal := finish (distanceAct 23 x.toNat s)

/-- DIST_24 (R130, R346). -/
def execDist24 (x : BitVec 11) (s : State) : Host.Outcome State Fault Refusal := finish (distanceAct 24 x.toNat s)

/-- DIST_25 (R130, R346). -/
def execDist25 (x : BitVec 11) (s : State) : Host.Outcome State Fault Refusal := finish (distanceAct 25 x.toNat s)

/-- DIST_26 (R130, R346). -/
def execDist26 (x : BitVec 12) (s : State) : Host.Outcome State Fault Refusal := finish (distanceAct 26 x.toNat s)

/-- DIST_27 (R130, R346). -/
def execDist27 (x : BitVec 12) (s : State) : Host.Outcome State Fault Refusal := finish (distanceAct 27 x.toNat s)

/-- DIST_28 (R130, R346). -/
def execDist28 (x : BitVec 13) (s : State) : Host.Outcome State Fault Refusal := finish (distanceAct 28 x.toNat s)

/-- DIST_29 (R130, R346). -/
def execDist29 (x : BitVec 13) (s : State) : Host.Outcome State Fault Refusal := finish (distanceAct 29 x.toNat s)

/-- D_INVALID_30 (R345). -/
def execDInvalid30 (s : State) : Host.Outcome State Fault Refusal := finish (badSymbolAct s)

/-- D_INVALID_31 (R345). -/
def execDInvalid31 (s : State) : Host.Outcome State Fault Refusal := finish (badSymbolAct s)

/-- TAG_SYM: the micro-operation SYM (R343). -/
def execTagSym (s : State) : Host.Outcome State Fault Refusal := finish (sym s)

/-- TAG_LEN_EXTRA: the micro-operation LEN_EXTRA (R344). -/
def execTagLenExtra (s : State) : Host.Outcome State Fault Refusal := finish (lenExtra s)

/-- TAG_DSYM: the micro-operation DSYM (R345). -/
def execTagDsym (s : State) : Host.Outcome State Fault Refusal := finish (dsym s)

/-- TAG_DIST_EXTRA: the micro-operation DIST_EXTRA (R346). -/
def execTagDistExtra (s : State) : Host.Outcome State Fault Refusal := finish (distExtra s)

/-- TAG_COPY: the micro-operation COPY (R347). -/
def execTagCopy (s : State) : Host.Outcome State Fault Refusal := finish (copy s)

end Sys2Proof.Machine
end

