-- ==== Sys2Proof/Machine/Dispatch.lean ====
section
/-! DEFINITION. `exec`: one arm per constructor of Instr, each one call of the instruction's meaning. -/

namespace Sys2Proof.Machine

def exec (i : Instr) (s : State) : Host.Outcome State Fault Refusal :=
  match i with
  | .zlibHdr v => Sys2Proof.Machine.execZlibHdr v s
  | .zlibFdict v => Sys2Proof.Machine.execZlibFdict v s
  | .rawNoHdr v => Sys2Proof.Machine.execRawNoHdr v s
  | .blkStored final => Sys2Proof.Machine.execBlkStored final s
  | .blkFixed final => Sys2Proof.Machine.execBlkFixed final s
  | .blkDynamic final => Sys2Proof.Machine.execBlkDynamic final s
  | .blkReserved final => Sys2Proof.Machine.execBlkReserved final s
  | .len16 v => Sys2Proof.Machine.execLen16 v s
  | .nlen16 v => Sys2Proof.Machine.execNlen16 v s
  | .storedByte b => Sys2Proof.Machine.execStoredByte b s
  | .hlit5 v => Sys2Proof.Machine.execHlit5 v s
  | .hdist5 v => Sys2Proof.Machine.execHdist5 v s
  | .hclen4 v => Sys2Proof.Machine.execHclen4 v s
  | .cll3 v => Sys2Proof.Machine.execCll3 v s
  | .clLen0 => Sys2Proof.Machine.execClLen0 s
  | .clLen1 => Sys2Proof.Machine.execClLen1 s
  | .clLen2 => Sys2Proof.Machine.execClLen2 s
  | .clLen3 => Sys2Proof.Machine.execClLen3 s
  | .clLen4 => Sys2Proof.Machine.execClLen4 s
  | .clLen5 => Sys2Proof.Machine.execClLen5 s
  | .clLen6 => Sys2Proof.Machine.execClLen6 s
  | .clLen7 => Sys2Proof.Machine.execClLen7 s
  | .clLen8 => Sys2Proof.Machine.execClLen8 s
  | .clLen9 => Sys2Proof.Machine.execClLen9 s
  | .clLen10 => Sys2Proof.Machine.execClLen10 s
  | .clLen11 => Sys2Proof.Machine.execClLen11 s
  | .clLen12 => Sys2Proof.Machine.execClLen12 s
  | .clLen13 => Sys2Proof.Machine.execClLen13 s
  | .clLen14 => Sys2Proof.Machine.execClLen14 s
  | .clLen15 => Sys2Proof.Machine.execClLen15 s
  | .rep16 x => Sys2Proof.Machine.execRep16 x s
  | .zero17 x => Sys2Proof.Machine.execZero17 x s
  | .zero18 x => Sys2Proof.Machine.execZero18 x s
  | .lit b => Sys2Proof.Machine.execLit b s
  | .eob => Sys2Proof.Machine.execEob s
  | .len257 => Sys2Proof.Machine.execLen257 s
  | .len258 => Sys2Proof.Machine.execLen258 s
  | .len259 => Sys2Proof.Machine.execLen259 s
  | .len260 => Sys2Proof.Machine.execLen260 s
  | .len261 => Sys2Proof.Machine.execLen261 s
  | .len262 => Sys2Proof.Machine.execLen262 s
  | .len263 => Sys2Proof.Machine.execLen263 s
  | .len264 => Sys2Proof.Machine.execLen264 s
  | .len265 x => Sys2Proof.Machine.execLen265 x s
  | .len266 x => Sys2Proof.Machine.execLen266 x s
  | .len267 x => Sys2Proof.Machine.execLen267 x s
  | .len268 x => Sys2Proof.Machine.execLen268 x s
  | .len269 x => Sys2Proof.Machine.execLen269 x s
  | .len270 x => Sys2Proof.Machine.execLen270 x s
  | .len271 x => Sys2Proof.Machine.execLen271 x s
  | .len272 x => Sys2Proof.Machine.execLen272 x s
  | .len273 x => Sys2Proof.Machine.execLen273 x s
  | .len274 x => Sys2Proof.Machine.execLen274 x s
  | .len275 x => Sys2Proof.Machine.execLen275 x s
  | .len276 x => Sys2Proof.Machine.execLen276 x s
  | .len277 x => Sys2Proof.Machine.execLen277 x s
  | .len278 x => Sys2Proof.Machine.execLen278 x s
  | .len279 x => Sys2Proof.Machine.execLen279 x s
  | .len280 x => Sys2Proof.Machine.execLen280 x s
  | .len281 x => Sys2Proof.Machine.execLen281 x s
  | .len282 x => Sys2Proof.Machine.execLen282 x s
  | .len283 x => Sys2Proof.Machine.execLen283 x s
  | .len284 x => Sys2Proof.Machine.execLen284 x s
  | .len285 => Sys2Proof.Machine.execLen285 s
  | .llInvalid286 => Sys2Proof.Machine.execLlInvalid286 s
  | .llInvalid287 => Sys2Proof.Machine.execLlInvalid287 s
  | .dist0 => Sys2Proof.Machine.execDist0 s
  | .dist1 => Sys2Proof.Machine.execDist1 s
  | .dist2 => Sys2Proof.Machine.execDist2 s
  | .dist3 => Sys2Proof.Machine.execDist3 s
  | .dist4 x => Sys2Proof.Machine.execDist4 x s
  | .dist5 x => Sys2Proof.Machine.execDist5 x s
  | .dist6 x => Sys2Proof.Machine.execDist6 x s
  | .dist7 x => Sys2Proof.Machine.execDist7 x s
  | .dist8 x => Sys2Proof.Machine.execDist8 x s
  | .dist9 x => Sys2Proof.Machine.execDist9 x s
  | .dist10 x => Sys2Proof.Machine.execDist10 x s
  | .dist11 x => Sys2Proof.Machine.execDist11 x s
  | .dist12 x => Sys2Proof.Machine.execDist12 x s
  | .dist13 x => Sys2Proof.Machine.execDist13 x s
  | .dist14 x => Sys2Proof.Machine.execDist14 x s
  | .dist15 x => Sys2Proof.Machine.execDist15 x s
  | .dist16 x => Sys2Proof.Machine.execDist16 x s
  | .dist17 x => Sys2Proof.Machine.execDist17 x s
  | .dist18 x => Sys2Proof.Machine.execDist18 x s
  | .dist19 x => Sys2Proof.Machine.execDist19 x s
  | .dist20 x => Sys2Proof.Machine.execDist20 x s
  | .dist21 x => Sys2Proof.Machine.execDist21 x s
  | .dist22 x => Sys2Proof.Machine.execDist22 x s
  | .dist23 x => Sys2Proof.Machine.execDist23 x s
  | .dist24 x => Sys2Proof.Machine.execDist24 x s
  | .dist25 x => Sys2Proof.Machine.execDist25 x s
  | .dist26 x => Sys2Proof.Machine.execDist26 x s
  | .dist27 x => Sys2Proof.Machine.execDist27 x s
  | .dist28 x => Sys2Proof.Machine.execDist28 x s
  | .dist29 x => Sys2Proof.Machine.execDist29 x s
  | .dInvalid30 => Sys2Proof.Machine.execDInvalid30 s
  | .dInvalid31 => Sys2Proof.Machine.execDInvalid31 s
  | .cmdOpen span ph nla vnd ovr => Sys2Proof.Machine.execOpen span ph nla vnd ovr s
  | .cmdStep => Sys2Proof.Machine.execStep s
  | .cmdSupply span => Sys2Proof.Machine.execSupply span s
  | .cmdIsFinal => Sys2Proof.Machine.execIsFinal s
  | .cmdPosition => Sys2Proof.Machine.execPosition s
  | .cmdReadCrc => Sys2Proof.Machine.execReadCrc s
  | .cmdReadOut index => Sys2Proof.Machine.execReadOut index s
  | .cmdReserved rest => Sys2Proof.Machine.execReserved rest s
  | .tagUnopened => Sys2Proof.Machine.execTagUnopened s
  | .tagZhdr => Sys2Proof.Machine.execTagZhdr s
  | .tagBhdr => Sys2Proof.Machine.execTagBhdr s
  | .tagStLen => Sys2Proof.Machine.execTagStLen s
  | .tagStNlen => Sys2Proof.Machine.execTagStNlen s
  | .tagStCopy => Sys2Proof.Machine.execTagStCopy s
  | .tagFxBuild => Sys2Proof.Machine.execTagFxBuild s
  | .tagDyHlit => Sys2Proof.Machine.execTagDyHlit s
  | .tagDyHdist => Sys2Proof.Machine.execTagDyHdist s
  | .tagDyHclen => Sys2Proof.Machine.execTagDyHclen s
  | .tagDyCll => Sys2Proof.Machine.execTagDyCll s
  | .tagDyClbuild => Sys2Proof.Machine.execTagDyClbuild s
  | .tagDyLsym => Sys2Proof.Machine.execTagDyLsym s
  | .tagDyLextra => Sys2Proof.Machine.execTagDyLextra s
  | .tagDyBuild => Sys2Proof.Machine.execTagDyBuild s
  | .tagSym => Sys2Proof.Machine.execTagSym s
  | .tagLenExtra => Sys2Proof.Machine.execTagLenExtra s
  | .tagDsym => Sys2Proof.Machine.execTagDsym s
  | .tagDistExtra => Sys2Proof.Machine.execTagDistExtra s
  | .tagCopy => Sys2Proof.Machine.execTagCopy s
  | .tagBlkEnd => Sys2Proof.Machine.execTagBlkEnd s
  | .tagFin => Sys2Proof.Machine.execTagFin s
  | .tagDone => Sys2Proof.Machine.execTagDone s
  | .tagFailed => Sys2Proof.Machine.execTagFailed s
  | .tagReserved low => Sys2Proof.Machine.execTagReserved low s

end Sys2Proof.Machine
end

