-- ==== Sys2Proof/WellFormed.lean ====
section
/-! DEFINITION. Which instructions stand for an encoding. Every operand's type admits exactly the values its field has, but
for the ZHDR16 rows, which divide the 16-bit values V among them by the header test (R139, R420, R425). -/

namespace Sys2Proof

/-- The instruction stands for an encoding: a ZHDR16 row holds a V of its own class; every other row is well-formed for
every operand. -/
def WellFormed : Instr → Bool
  | .zlibHdr v => Machine.isZlibHeader v && !Machine.hasFdict v
  | .zlibFdict v => Machine.isZlibHeader v && Machine.hasFdict v
  | .rawNoHdr v => !Machine.isZlibHeader v
  | _ => true

end Sys2Proof
end

