-- ==== Sys2Proof/Decode.lean ====
section
/-! DEFINITION. The decoder, total on every value of every format and rejecting by name, and after it the encoder, both
written from the encoding tables of 30_encoding.md (R120 to R139) and spec/opcode_table.json. A value is numbered as the
table numbers it: bit 0 is the first stream bit of a field, the least significant bit of a symbol, a word or TAG. -/

namespace Sys2Proof

/-- Why a value is no instruction. -/
inductive Reject where
  /-- the value has a bit above the format's width -/
  | tooWide (f : Format) (w : Nat)
  /-- the alphabet has no such symbol (CL symbols end at 18, LL symbols at 287) -/
  | noSuchSymbol (f : Format) (v : Nat)
  /-- the extra-bit field has a bit above the symbol's count of extra bits -/
  | extraBitsTooWide (f : Format) (v : Nat)
  /-- a command word sets a bit that R135 marks zero (R439: refused) -/
  | reservedBits (w : Nat)
  deriving DecidableEq, Repr

/-- ZHDR16: every V is one of the three rows (R139, R420, R425). -/
def decodeZhdr (v : BitVec 16) : Instr :=
  if Machine.isZlibHeader v then (if Machine.hasFdict v then .zlibFdict v else .zlibHdr v) else .rawNoHdr v

/-- BHDR3: BFINAL = H[0], BTYPE = H[2:1] (R123). -/
def decodeBhdr (h : BitVec 3) : Instr :=
  match (h.extractLsb' 1 2).toNat with
  | 0 => .blkStored (h.getLsbD 0)
  | 1 => .blkFixed (h.getLsbD 0)
  | 2 => .blkDynamic (h.getLsbD 0)
  | _ => .blkReserved (h.getLsbD 0)

/-- CLSYM rows, symbols 0 to 18: the count of extra bits and the instruction with those bits (R127). -/
def clRows : List (Nat × (Nat → Instr)) :=
  [(0, fun _ => .clLen0), (0, fun _ => .clLen1),
   (0, fun _ => .clLen2), (0, fun _ => .clLen3),
   (0, fun _ => .clLen4), (0, fun _ => .clLen5),
   (0, fun _ => .clLen6), (0, fun _ => .clLen7),
   (0, fun _ => .clLen8), (0, fun _ => .clLen9),
   (0, fun _ => .clLen10), (0, fun _ => .clLen11),
   (0, fun _ => .clLen12), (0, fun _ => .clLen13),
   (0, fun _ => .clLen14), (0, fun _ => .clLen15),
   (2, fun x => .rep16 (BitVec.ofNat 2 x)), (3, fun x => .zero17 (BitVec.ofNat 3 x)),
   (7, fun x => .zero18 (BitVec.ofNat 7 x))]

/-- LLSYM rows, symbols 256 to 287: the count of extra bits and the instruction with those bits (R128, R129). -/
def llRows : List (Nat × (Nat → Instr)) :=
  [(0, fun _ => .eob), (0, fun _ => .len257),
   (0, fun _ => .len258), (0, fun _ => .len259),
   (0, fun _ => .len260), (0, fun _ => .len261),
   (0, fun _ => .len262), (0, fun _ => .len263),
   (0, fun _ => .len264), (1, fun x => .len265 (BitVec.ofNat 1 x)),
   (1, fun x => .len266 (BitVec.ofNat 1 x)), (1, fun x => .len267 (BitVec.ofNat 1 x)),
   (1, fun x => .len268 (BitVec.ofNat 1 x)), (2, fun x => .len269 (BitVec.ofNat 2 x)),
   (2, fun x => .len270 (BitVec.ofNat 2 x)), (2, fun x => .len271 (BitVec.ofNat 2 x)),
   (2, fun x => .len272 (BitVec.ofNat 2 x)), (3, fun x => .len273 (BitVec.ofNat 3 x)),
   (3, fun x => .len274 (BitVec.ofNat 3 x)), (3, fun x => .len275 (BitVec.ofNat 3 x)),
   (3, fun x => .len276 (BitVec.ofNat 3 x)), (4, fun x => .len277 (BitVec.ofNat 4 x)),
   (4, fun x => .len278 (BitVec.ofNat 4 x)), (4, fun x => .len279 (BitVec.ofNat 4 x)),
   (4, fun x => .len280 (BitVec.ofNat 4 x)), (5, fun x => .len281 (BitVec.ofNat 5 x)),
   (5, fun x => .len282 (BitVec.ofNat 5 x)), (5, fun x => .len283 (BitVec.ofNat 5 x)),
   (5, fun x => .len284 (BitVec.ofNat 5 x)), (0, fun _ => .len285),
   (0, fun _ => .llInvalid286), (0, fun _ => .llInvalid287)]

/-- DSYM rows, symbols 0 to 31: the count of extra bits and the instruction with those bits (R130). -/
def dRows : List (Nat × (Nat → Instr)) :=
  [(0, fun _ => .dist0), (0, fun _ => .dist1),
   (0, fun _ => .dist2), (0, fun _ => .dist3),
   (1, fun x => .dist4 (BitVec.ofNat 1 x)), (1, fun x => .dist5 (BitVec.ofNat 1 x)),
   (2, fun x => .dist6 (BitVec.ofNat 2 x)), (2, fun x => .dist7 (BitVec.ofNat 2 x)),
   (3, fun x => .dist8 (BitVec.ofNat 3 x)), (3, fun x => .dist9 (BitVec.ofNat 3 x)),
   (4, fun x => .dist10 (BitVec.ofNat 4 x)), (4, fun x => .dist11 (BitVec.ofNat 4 x)),
   (5, fun x => .dist12 (BitVec.ofNat 5 x)), (5, fun x => .dist13 (BitVec.ofNat 5 x)),
   (6, fun x => .dist14 (BitVec.ofNat 6 x)), (6, fun x => .dist15 (BitVec.ofNat 6 x)),
   (7, fun x => .dist16 (BitVec.ofNat 7 x)), (7, fun x => .dist17 (BitVec.ofNat 7 x)),
   (8, fun x => .dist18 (BitVec.ofNat 8 x)), (8, fun x => .dist19 (BitVec.ofNat 8 x)),
   (9, fun x => .dist20 (BitVec.ofNat 9 x)), (9, fun x => .dist21 (BitVec.ofNat 9 x)),
   (10, fun x => .dist22 (BitVec.ofNat 10 x)), (10, fun x => .dist23 (BitVec.ofNat 10 x)),
   (11, fun x => .dist24 (BitVec.ofNat 11 x)), (11, fun x => .dist25 (BitVec.ofNat 11 x)),
   (12, fun x => .dist26 (BitVec.ofNat 12 x)), (12, fun x => .dist27 (BitVec.ofNat 12 x)),
   (13, fun x => .dist28 (BitVec.ofNat 13 x)), (13, fun x => .dist29 (BitVec.ofNat 13 x)),
   (0, fun _ => .dInvalid30), (0, fun _ => .dInvalid31)]

/-- TAG5 rows 0 to 23 (R32, Table T). -/
def tagRows : List Instr :=
  [.tagUnopened, .tagZhdr, .tagBhdr, .tagStLen, .tagStNlen, .tagStCopy, .tagFxBuild, .tagDyHlit,
   .tagDyHdist, .tagDyHclen, .tagDyCll, .tagDyClbuild, .tagDyLsym, .tagDyLextra, .tagDyBuild,
   .tagSym, .tagLenExtra, .tagDsym, .tagDistExtra, .tagCopy, .tagBlkEnd, .tagFin, .tagDone,
   .tagFailed]

/-- A row with its extra bits, refused when `x` does not fit the row's count. -/
def withExtra (f : Format) (v : Nat) (row : Option (Nat × (Nat → Instr))) (x : Nat) : Except Reject Instr :=
  match row with
  | none => .error (.noSuchSymbol f v)
  | some (e, mk) => if x < 2 ^ e then .ok (mk x) else .error (.extraBitsTooWide f v)

/-- A code-length symbol `v` and its extra bits `x` (R127). -/
def decodeCl (v x : Nat) : Except Reject Instr := withExtra .clsym v clRows[v]? x

/-- A literal/length symbol `v` and its extra bits `x` (R128). -/
def decodeLl (v x : Nat) : Except Reject Instr :=
  if v < 256 then withExtra .llsym v (some (0, fun _ => .lit (BitVec.ofNat 8 v))) x
  else withExtra .llsym v llRows[v - 256]? x

/-- A distance symbol `v` and its extra bits `x` (R130). -/
def decodeD (v x : Nat) : Except Reject Instr := withExtra .dsym v dRows[v]? x

/-- TAG5: the instruction STEP runs while TAG holds the code (R139); codes 24 to 31 are TAG_RESERVED. -/
def decodeTag (t : BitVec 5) : Instr :=
  match tagRows[t.toNat]? with
  | some i => i
  | none => .tagReserved (t.setWidth 3)

/-- CMD32: the command word, with its span operand (R135). A word with a bit set that R135 marks zero is refused. -/
def decodeCmd (w : Word32) (span : List Byte) : Except Reject Instr :=
  let only (i : Instr) : Except Reject Instr := if w >>> 3 = 0#32 then .ok i else .error (.reservedBits w.toNat)
  match (w.extractLsb' 0 3).toNat with
  | 0 =>
    if w >>> 7 = 0#32 then .ok (.cmdOpen span (w.getLsbD 3) (w.getLsbD 4) (w.getLsbD 5) (w.getLsbD 6))
    else .error (.reservedBits w.toNat)
  | 1 => only .cmdStep
  | 2 => only (.cmdSupply span)
  | 3 => only .cmdIsFinal
  | 4 => only .cmdPosition
  | 5 => if w.extractLsb' 3 13 = 0#13 then .ok (.cmdReadOut (w.extractLsb' 16 16)) else .error (.reservedBits w.toNat)
  | 6 => only .cmdReadCrc
  | _ => .ok (.cmdReserved (w.extractLsb' 3 29))

/-- A fixed-width field, refused when the value has a bit above the width. -/
def fixedField (f : Format) (n w : Nat) (mk : BitVec n → Instr) : Except Reject Instr :=
  if w < 2 ^ n then .ok (mk (BitVec.ofNat n w)) else .error (.tooWide f w)

/-- The decoder: the instruction a value of a format stands for. `span` is the span operand of OPEN and SUPPLY. -/
def decode (f : Format) (w : Nat) (span : List Byte) : Except Reject Instr :=
  match f with
  | .zhdr16 => fixedField .zhdr16 16 w decodeZhdr
  | .bhdr3 => fixedField .bhdr3 3 w decodeBhdr
  | .storedLen => fixedField .storedLen 16 w .len16
  | .storedNlen => fixedField .storedNlen 16 w .nlen16
  | .storedByte => fixedField .storedByte 8 w .storedByte
  | .dynHlit => fixedField .dynHlit 5 w .hlit5
  | .dynHdist => fixedField .dynHdist 5 w .hdist5
  | .dynHclen => fixedField .dynHclen 4 w .hclen4
  | .dynCll => fixedField .dynCll 3 w .cll3
  | .clsym => decodeCl (w % 32) (w / 32)
  | .llsym => decodeLl (w % 512) (w / 512)
  | .dsym => decodeD (w % 32) (w / 32)
  | .cmd32 => if w < 2 ^ 32 then decodeCmd (BitVec.ofNat 32 w) span else .error (.tooWide .cmd32 w)
  | .tag5 => fixedField .tag5 5 w decodeTag

/-! The encoder. -/

/-- The format of an instruction's row (R139). -/
def formatOf : Instr → Format
  | .zlibHdr _ => .zhdr16
  | .zlibFdict _ => .zhdr16
  | .rawNoHdr _ => .zhdr16
  | .blkStored _ => .bhdr3
  | .blkFixed _ => .bhdr3
  | .blkDynamic _ => .bhdr3
  | .blkReserved _ => .bhdr3
  | .len16 _ => .storedLen
  | .nlen16 _ => .storedNlen
  | .storedByte _ => .storedByte
  | .hlit5 _ => .dynHlit
  | .hdist5 _ => .dynHdist
  | .hclen4 _ => .dynHclen
  | .cll3 _ => .dynCll
  | .clLen0 => .clsym
  | .clLen1 => .clsym
  | .clLen2 => .clsym
  | .clLen3 => .clsym
  | .clLen4 => .clsym
  | .clLen5 => .clsym
  | .clLen6 => .clsym
  | .clLen7 => .clsym
  | .clLen8 => .clsym
  | .clLen9 => .clsym
  | .clLen10 => .clsym
  | .clLen11 => .clsym
  | .clLen12 => .clsym
  | .clLen13 => .clsym
  | .clLen14 => .clsym
  | .clLen15 => .clsym
  | .rep16 _ => .clsym
  | .zero17 _ => .clsym
  | .zero18 _ => .clsym
  | .lit _ => .llsym
  | .eob => .llsym
  | .len257 => .llsym
  | .len258 => .llsym
  | .len259 => .llsym
  | .len260 => .llsym
  | .len261 => .llsym
  | .len262 => .llsym
  | .len263 => .llsym
  | .len264 => .llsym
  | .len265 _ => .llsym
  | .len266 _ => .llsym
  | .len267 _ => .llsym
  | .len268 _ => .llsym
  | .len269 _ => .llsym
  | .len270 _ => .llsym
  | .len271 _ => .llsym
  | .len272 _ => .llsym
  | .len273 _ => .llsym
  | .len274 _ => .llsym
  | .len275 _ => .llsym
  | .len276 _ => .llsym
  | .len277 _ => .llsym
  | .len278 _ => .llsym
  | .len279 _ => .llsym
  | .len280 _ => .llsym
  | .len281 _ => .llsym
  | .len282 _ => .llsym
  | .len283 _ => .llsym
  | .len284 _ => .llsym
  | .len285 => .llsym
  | .llInvalid286 => .llsym
  | .llInvalid287 => .llsym
  | .dist0 => .dsym
  | .dist1 => .dsym
  | .dist2 => .dsym
  | .dist3 => .dsym
  | .dist4 _ => .dsym
  | .dist5 _ => .dsym
  | .dist6 _ => .dsym
  | .dist7 _ => .dsym
  | .dist8 _ => .dsym
  | .dist9 _ => .dsym
  | .dist10 _ => .dsym
  | .dist11 _ => .dsym
  | .dist12 _ => .dsym
  | .dist13 _ => .dsym
  | .dist14 _ => .dsym
  | .dist15 _ => .dsym
  | .dist16 _ => .dsym
  | .dist17 _ => .dsym
  | .dist18 _ => .dsym
  | .dist19 _ => .dsym
  | .dist20 _ => .dsym
  | .dist21 _ => .dsym
  | .dist22 _ => .dsym
  | .dist23 _ => .dsym
  | .dist24 _ => .dsym
  | .dist25 _ => .dsym
  | .dist26 _ => .dsym
  | .dist27 _ => .dsym
  | .dist28 _ => .dsym
  | .dist29 _ => .dsym
  | .dInvalid30 => .dsym
  | .dInvalid31 => .dsym
  | .cmdOpen _ _ _ _ _ => .cmd32
  | .cmdStep => .cmd32
  | .cmdSupply _ => .cmd32
  | .cmdIsFinal => .cmd32
  | .cmdPosition => .cmd32
  | .cmdReadCrc => .cmd32
  | .cmdReadOut _ => .cmd32
  | .cmdReserved _ => .cmd32
  | .tagUnopened => .tag5
  | .tagZhdr => .tag5
  | .tagBhdr => .tag5
  | .tagStLen => .tag5
  | .tagStNlen => .tag5
  | .tagStCopy => .tag5
  | .tagFxBuild => .tag5
  | .tagDyHlit => .tag5
  | .tagDyHdist => .tag5
  | .tagDyHclen => .tag5
  | .tagDyCll => .tag5
  | .tagDyClbuild => .tag5
  | .tagDyLsym => .tag5
  | .tagDyLextra => .tag5
  | .tagDyBuild => .tag5
  | .tagSym => .tag5
  | .tagLenExtra => .tag5
  | .tagDsym => .tag5
  | .tagDistExtra => .tag5
  | .tagCopy => .tag5
  | .tagBlkEnd => .tag5
  | .tagFin => .tag5
  | .tagDone => .tag5
  | .tagFailed => .tag5
  | .tagReserved _ => .tag5

/-- The value of an instruction: its row's match with the operand fields filled in. -/
def encode : Instr → Nat
  | .zlibHdr v => v.toNat
  | .zlibFdict v => v.toNat
  | .rawNoHdr v => v.toNat
  | .blkStored final => final.toNat
  | .blkFixed final => 1 * 2 + final.toNat
  | .blkDynamic final => 2 * 2 + final.toNat
  | .blkReserved final => 3 * 2 + final.toNat
  | .len16 v => v.toNat
  | .nlen16 v => v.toNat
  | .storedByte b => b.toNat
  | .hlit5 v => v.toNat
  | .hdist5 v => v.toNat
  | .hclen4 v => v.toNat
  | .cll3 v => v.toNat
  | .clLen0 => 0
  | .clLen1 => 1
  | .clLen2 => 2
  | .clLen3 => 3
  | .clLen4 => 4
  | .clLen5 => 5
  | .clLen6 => 6
  | .clLen7 => 7
  | .clLen8 => 8
  | .clLen9 => 9
  | .clLen10 => 10
  | .clLen11 => 11
  | .clLen12 => 12
  | .clLen13 => 13
  | .clLen14 => 14
  | .clLen15 => 15
  | .rep16 x => 16 + x.toNat * 32
  | .zero17 x => 17 + x.toNat * 32
  | .zero18 x => 18 + x.toNat * 32
  | .lit b => b.toNat
  | .eob => 256
  | .len257 => 257
  | .len258 => 258
  | .len259 => 259
  | .len260 => 260
  | .len261 => 261
  | .len262 => 262
  | .len263 => 263
  | .len264 => 264
  | .len265 x => 265 + x.toNat * 512
  | .len266 x => 266 + x.toNat * 512
  | .len267 x => 267 + x.toNat * 512
  | .len268 x => 268 + x.toNat * 512
  | .len269 x => 269 + x.toNat * 512
  | .len270 x => 270 + x.toNat * 512
  | .len271 x => 271 + x.toNat * 512
  | .len272 x => 272 + x.toNat * 512
  | .len273 x => 273 + x.toNat * 512
  | .len274 x => 274 + x.toNat * 512
  | .len275 x => 275 + x.toNat * 512
  | .len276 x => 276 + x.toNat * 512
  | .len277 x => 277 + x.toNat * 512
  | .len278 x => 278 + x.toNat * 512
  | .len279 x => 279 + x.toNat * 512
  | .len280 x => 280 + x.toNat * 512
  | .len281 x => 281 + x.toNat * 512
  | .len282 x => 282 + x.toNat * 512
  | .len283 x => 283 + x.toNat * 512
  | .len284 x => 284 + x.toNat * 512
  | .len285 => 285
  | .llInvalid286 => 286
  | .llInvalid287 => 287
  | .dist0 => 0
  | .dist1 => 1
  | .dist2 => 2
  | .dist3 => 3
  | .dist4 x => 4 + x.toNat * 32
  | .dist5 x => 5 + x.toNat * 32
  | .dist6 x => 6 + x.toNat * 32
  | .dist7 x => 7 + x.toNat * 32
  | .dist8 x => 8 + x.toNat * 32
  | .dist9 x => 9 + x.toNat * 32
  | .dist10 x => 10 + x.toNat * 32
  | .dist11 x => 11 + x.toNat * 32
  | .dist12 x => 12 + x.toNat * 32
  | .dist13 x => 13 + x.toNat * 32
  | .dist14 x => 14 + x.toNat * 32
  | .dist15 x => 15 + x.toNat * 32
  | .dist16 x => 16 + x.toNat * 32
  | .dist17 x => 17 + x.toNat * 32
  | .dist18 x => 18 + x.toNat * 32
  | .dist19 x => 19 + x.toNat * 32
  | .dist20 x => 20 + x.toNat * 32
  | .dist21 x => 21 + x.toNat * 32
  | .dist22 x => 22 + x.toNat * 32
  | .dist23 x => 23 + x.toNat * 32
  | .dist24 x => 24 + x.toNat * 32
  | .dist25 x => 25 + x.toNat * 32
  | .dist26 x => 26 + x.toNat * 32
  | .dist27 x => 27 + x.toNat * 32
  | .dist28 x => 28 + x.toNat * 32
  | .dist29 x => 29 + x.toNat * 32
  | .dInvalid30 => 30
  | .dInvalid31 => 31
  | .cmdOpen _ ph nla vnd ovr => ph.toNat * 8 + nla.toNat * 16 + vnd.toNat * 32 + ovr.toNat * 64
  | .cmdStep => 1
  | .cmdSupply _ => 2
  | .cmdIsFinal => 3
  | .cmdPosition => 4
  | .cmdReadCrc => 6
  | .cmdReadOut index => 5 + index.toNat * 65536
  | .cmdReserved rest => 7 + rest.toNat * 8
  | .tagUnopened => 0
  | .tagZhdr => 1
  | .tagBhdr => 2
  | .tagStLen => 3
  | .tagStNlen => 4
  | .tagStCopy => 5
  | .tagFxBuild => 6
  | .tagDyHlit => 7
  | .tagDyHdist => 8
  | .tagDyHclen => 9
  | .tagDyCll => 10
  | .tagDyClbuild => 11
  | .tagDyLsym => 12
  | .tagDyLextra => 13
  | .tagDyBuild => 14
  | .tagSym => 15
  | .tagLenExtra => 16
  | .tagDsym => 17
  | .tagDistExtra => 18
  | .tagCopy => 19
  | .tagBlkEnd => 20
  | .tagFin => 21
  | .tagDone => 22
  | .tagFailed => 23
  | .tagReserved low => 24 + low.toNat

/-- The span operand an instruction is given beside its word (R135). -/
def spanOf : Instr → List Byte
  | .cmdOpen span _ _ _ _ => span
  | .cmdSupply span => span
  | _ => []

/-! The table's own numbering of words. -/

/-- The formats whose values have `nbits` bits in spec/opcode_table.json, in the order they are tried. The table numbers
each format's values from 0, so one word can be a value of several formats (log entry 14). -/
def tableFormats (nbits : Nat) : List Format :=
  if nbits = 8 then [.tag5, .storedByte]
  else if nbits = 16 then [.llsym, .zhdr16]
  else if nbits = 24 then [.dsym]
  else if nbits = 32 then [.cmd32, .dsym]
  else []

/-- The first format of the list that gives the word an instruction. -/
def decodeFirst (w : Nat) : List Format → Option Instr
  | [] => none
  | f :: fs =>
    match decode f w [] with
    | .ok i => some i
    | .error _ => decodeFirst w fs

/-- The instruction the decoder reads from a word of `nbits` bits as the table numbers them. -/
def decodeTableWord (nbits w : Nat) : Option Instr := decodeFirst w (tableFormats nbits)

end Sys2Proof
end

