-- ==== Sys2Proof/Machine/Fetch.lean ====
section
/-! DEFINITION. Where the next instruction comes from: TAG while a STEP is in progress, else the first command on the port
(10_state.md R32, 46_zlib_header_and_host.md R430, R431); and how a word of the opcode table is put there. -/

namespace Sys2Proof.Machine

/-- What the machine finds where it fetches. -/
inductive Fetched where
  /-- an instruction, and the state in which it runs -/
  | instr (i : Instr) (s : State)
  /-- no command is pending: the core is idle and holds its state (R512) -/
  | idle
  /-- a command word with a reserved bit set, which is refused (R439) -/
  | badCommand (s : State)
  deriving DecidableEq, Repr

/-- The fetch. A command is taken off the port when it is accepted. -/
def fetch (s : State) : Fetched :=
  if s.stepping then .instr (decodeTag s.tag) s
  else
    match s.port with
    | [] => .idle
    | c :: cs =>
      match decode .cmd32 c.word.toNat c.span with
      | .ok i => .instr i { s with port := cs }
      | .error _ => .badCommand { s with port := cs }

/-! Placing a word of the opcode table (log entry 14). -/

/-- A STEP in progress with TAG = `t` and the stream bits `bits` next. -/
def placeBits (t : BitVec 5) (bits : List Bool) (s : State) : State := { s with stepping := true, tag := t, acc := bits }

/-- A one-symbol table, whose two 1-bit codes both give `v` (R233). -/
def placeTable (v : Nat) : Memory Entry := [(0, BitVec.ofNat 16 v), (1, BitVec.ofNat 16 v)]

/-- The count of extra bits of a symbol's row (R127, R129, R130). -/
def extraCount (row : Option (Nat × (Nat → Instr))) : Nat :=
  match row with
  | some (e, _) => e
  | none => 0

/-- A code-length symbol with its extra bits: 16 to 18 complete in DY_LEXTRA, the others in DY_LSYM. -/
def placeCl (v x : Nat) (s : State) : State :=
  if v ≤ 15 then { placeBits Tag.dyLsym [false] s with tCL := placeTable v }
  else { placeBits Tag.dyLextra (valueBits (extraCount clRows[v]?) x) s with cur := BitVec.ofNat 9 v }

/-- A literal/length symbol with its extra bits: a length symbol completes in LEN_EXTRA, the others in SYM. -/
def placeLl (v x : Nat) (s : State) : State :=
  if 257 ≤ v ∧ v ≤ 285 then { placeBits Tag.lenExtra (valueBits (extraCount llRows[v - 256]?) x) s with cur := BitVec.ofNat 9 v }
  else { placeBits Tag.sym [false] s with tLL := placeTable v }

/-- A distance symbol with its extra bits: a valid one completes in DIST_EXTRA, the others are met in DSYM. -/
def placeD (v x : Nat) (s : State) : State :=
  if v < Config.dValid then { placeBits Tag.distExtra (valueBits (extraCount dRows[v]?) x) s with dsym := BitVec.ofNat 5 v }
  else { placeBits Tag.dsym [false] s with tD := placeTable v, dEmpty := false }

/-- A micro-operation, with the operands it never runs without: a CLENS for DY_CLBUILD, a CUR for DY_LEXTRA and LEN_EXTRA, a
window byte for COPY. -/
def placeTag (t : BitVec 5) (s : State) : State :=
  let s1 := { s with stepping := true, tag := t }
  if t = Tag.dyClbuild then { s1 with clens := Memory.cells 0 (List.replicate Config.clSyms 0#3) }
  else if t = Tag.dyLextra then { s1 with cur := 16#9 }
  else if t = Tag.lenExtra then { s1 with cur := 257#9 }
  else if t = Tag.copy then { s1 with win := [(winIndex s.wpos s.dist, 0#8)] }
  else s1

/-- The state whose next step fetches the value `w` of format `f`. -/
def place (f : Format) (w : Nat) (s : State) : State :=
  match f with
  | .zhdr16 => placeBits Tag.zhdr (valueBits 8 (w / 256) ++ valueBits 8 w) s
  | .bhdr3 => placeBits Tag.bhdr (valueBits 3 w) s
  | .storedLen => placeBits Tag.stLen (valueBits 16 w) s
  | .storedNlen => placeBits Tag.stNlen (valueBits 16 w) s
  | .storedByte => placeBits Tag.stCopy (valueBits 8 w) s
  | .dynHlit => placeBits Tag.dyHlit (valueBits 5 w) s
  | .dynHdist => placeBits Tag.dyHdist (valueBits 5 w) s
  | .dynHclen => placeBits Tag.dyHclen (valueBits 4 w) s
  | .dynCll => placeBits Tag.dyCll (valueBits 3 w) s
  | .clsym => placeCl (w % 32) (w / 32) s
  | .llsym => placeLl (w % 512) (w / 512) s
  | .dsym => placeD (w % 32) (w / 32) s
  | .cmd32 => { s with stepping := false, port := { word := BitVec.ofNat 32 w, span := [] } :: s.port }
  | .tag5 => placeTag (BitVec.ofNat 5 w) s

/-- Place the word under the first format of the list that gives it an instruction. -/
def placeFirst (w : Nat) (s : State) : List Format → State
  | [] => s
  | f :: fs =>
    match decode f w [] with
    | .ok _ => place f w s
    | .error _ => placeFirst w s fs

end Sys2Proof.Machine
end

