-- ==== Sys2Proof/Machine/Step.lean ====
section
/-! DEFINITION. One step of the machine: one micro-step while a STEP is in progress, else one host command. -/

namespace Sys2Proof.Machine

/-- Fetch an instruction and run it. With no command pending the core holds its state (R512). -/
def step (s : State) : Host.Outcome State Fault Refusal :=
  match fetch s with
  | .instr i s1 => exec i s1
  | .idle => .next s
  | .badCommand s1 => .next (refuse s1)

/-- The state whose next step fetches and runs the instruction of a word of `nbits` bits, numbered as
spec/opcode_table.json numbers it (log entry 14). -/
def State.withFetchWord (s : State) (nbits w : Nat) : State := placeFirst w s (tableFormats nbits)

end Sys2Proof.Machine
end

