-- ==== Sys2Proof/Machine/Pseudo.lean ====
section
/-! DEFINITION. The pseudo-instructions MATCH and ZERORUN (30_encoding.md R138): how they expand into tokens. -/

namespace Sys2Proof.Machine

/-- The largest length symbol whose LBASE is at most `len`; 285 for 258 (R138). Below 3 it is 256, which has no row of ROM_LEN
and so no expansion: DEDUCED, log entry 21. -/
def matchLenSymbol (len : Nat) : Nat := 256 + romLenRows.countP (fun r => decide (r.1 ≤ len))

/-- The largest distance symbol whose DBASE is at most `dist` (R138). A distance of 0 has none: DEDUCED, log entry 21. -/
def matchDistSymbol (dist : Nat) : Option Nat :=
  match romDistRows.countP (fun r => decide (r.1 ≤ dist)) with
  | 0 => none
  | n + 1 => some n

/-- MATCH len, dist: the length token and the distance token, each with its extra bits (R138). None outside lengths 3 to 258
and distances 1 to 32768, for which R138 gives no expansion: DEDUCED, log entry 21. -/
def matchTokens (len dist : Nat) : Option (Instr × Instr) :=
  match matchDistSymbol dist with
  | none => none
  | some d =>
    match romLen (matchLenSymbol len), romDist d with
    | some (lb, _), some (db, _) =>
      match decodeLl (matchLenSymbol len) (len - lb), decodeD d (dist - db) with
      | .ok li, .ok di => some (li, di)
      | _, _ => none
    | _, _ => none

/-- The rest of a ZERORUN, `fuel` tokens at most. -/
def zeroRunFrom : Nat → Nat → List Instr
  | 0, _ => []
  | fuel + 1, n =>
    if 11 ≤ n then .zero18 (BitVec.ofNat 7 (min n 138 - 11)) :: zeroRunFrom fuel (n - min n 138)
    else if 3 ≤ n then [.zero17 (BitVec.ofNat 3 (n - 3))]
    else List.replicate n .clLen0

/-- ZERORUN n: ZERO18 runs of up to 138, then ZERO17 or CL 0 for the rest (R138). -/
def zeroRunTokens (n : Nat) : List Instr := zeroRunFrom (n + 1) n

end Sys2Proof.Machine
end

