-- ==== Sys2Proof/Safety.lean ====
section
/-! DEFINITION. The terms in which claims are made: the stream not yet consumed, the path of a code through a decode table,
the invariant of a safe run (from 10_state.md R47 and what R46, R237 and R349 rest on), what a produced byte leaves, runs. -/

namespace Sys2Proof.Machine

/-! The stream. -/

/-- The bytes of the span not yet pulled. -/
def unread (s : State) : List Byte := s.span.drop s.ipos

/-- The stream bits at hand and not yet consumed: those in ACC, then those of the bytes not yet pulled (R209). -/
def streamBits (s : State) : List Bool := s.acc ++ (unread s).flatMap byteBits

/-- How many stream bits are at hand. -/
def avail (s : State) : Nat := (streamBits s).length

/-- The value of the next `n` stream bits (R12). -/
def streamValue (n : Nat) (s : State) : Nat := bitsValue ((streamBits s).take n)

/-- The state after READ(n) with its bits at hand (R203). -/
def afterRead (n : Nat) (s : State) : State := drop n (pull n s)

/-! Decode tables. -/

/-- The symbol that a whole code spells in a table, walked from index `idx`: none if the walk leaves the table or does not
end at a leaf with the code's last bit (R240). -/
def followCode (t : Memory Entry) : Nat → List Bool → Option Nat
  | _, [] => none
  | idx, b :: bs =>
    match Memory.read t (idx + b.toNat) with
    | none => none
    | some e => if e.msb then followCode t (~~~e).toNat bs else if bs = [] then some e.toNat else none

/-- The canonical code value of symbol `i`: first[l] and the number of smaller symbols of its length l (R234, R236). -/
def codeValue (ls : List Nat) (i : Nat) : Nat :=
  firstCode ls (ls.getD i 0) + (ls.take i).count (ls.getD i 0)

/-- The bits of an `l`-bit code, most significant first, as they stand in the stream (R131, R243). -/
def codeBits (l c : Nat) : List Bool := (valueBits l c).reverse

/-- Every walk of the table reads written entries only: its first `n` entries are written, every pointer goes to a pair
among them, every leaf holds a symbol below `bound` (R237). -/
def TableClosed (t : Memory Entry) (bound : Nat) : Prop :=
  ∃ n, 2 ≤ n ∧ ∀ i, i < n → ∃ e, Memory.read t i = some e ∧
    (e.msb = false → e.toNat < bound) ∧ (e.msb = true → (~~~e).toNat + 1 < n)

/-- The elements 0..n−1 of a memory are written. -/
def Written {α : Type} (m : Memory α) (n : Nat) : Prop := ∀ i, i < n → (Memory.read m i).isSome

/-- The index in WIN of the byte produced `d` bytes before the next one (R342). -/
def backIndex (s : State) (d : Nat) : Nat := (s.wpos.toNat + Config.winSize - d) % Config.winSize

/-! The invariant. -/

/-- The LL and D counts are in range (R37). -/
def CountsOk (s : State) : Prop :=
  257 ≤ s.hlit.toNat ∧ s.hlit.toNat ≤ 288 ∧ 1 ≤ s.hdist.toNat ∧ s.hdist.toNat ≤ 32

/-- The tables of the symbol phase are built. -/
def TablesOk (s : State) : Prop := TableClosed s.tLL 288 ∧ (s.dEmpty = false → TableClosed s.tD 32)

/-- MLEN is a copy length (R38). -/
def MlenOk (s : State) : Prop := 3 ≤ s.mlen.toNat ∧ s.mlen.toNat ≤ 258

/-- What each micro-operation finds in the registers and memories it reads (R46, R602). -/
structure Phase (s : State) : Prop where
  /-- ST_COPY has a byte left -/
  stCopy : s.tag = Tag.stCopy → 1 ≤ s.rem.toNat
  /-- HLIT is in range once read -/
  hlit : s.tag = Tag.dyHdist → 257 ≤ s.hlit.toNat ∧ s.hlit.toNat ≤ 288
  /-- both counts are in range once read -/
  counts : s.tag = Tag.dyHclen ∨ s.tag = Tag.dyCll ∨ s.tag = Tag.dyClbuild ∨ s.tag = Tag.dyLsym ∨ s.tag = Tag.dyLextra ∨
    s.tag = Tag.dyBuild → CountsOk s
  /-- CLENS is written, and K is short of HCLEN ≤ 19 -/
  cll : s.tag = Tag.dyCll → Written s.clens 19 ∧ s.k.toNat < s.hclen.toNat ∧ s.hclen.toNat ≤ 19
  /-- CLENS is written -/
  clbuild : s.tag = Tag.dyClbuild → Written s.clens 19
  /-- T_CL is built, and J entries of LENS are written, fewer than are wanted -/
  lsym : s.tag = Tag.dyLsym ∨ s.tag = Tag.dyLextra →
    TableClosed s.tCL 19 ∧ s.j.toNat < lensWanted s ∧ Written s.lens s.j.toNat
  /-- CUR is a repeat symbol, and a repeat of the previous length has one -/
  lextra : s.tag = Tag.dyLextra → 16 ≤ s.cur.toNat ∧ s.cur.toNat ≤ 18 ∧ (s.cur = 16#9 → s.j ≠ 0#9)
  /-- every wanted entry of LENS is written -/
  build : s.tag = Tag.dyBuild → s.j.toNat = lensWanted s ∧ Written s.lens s.j.toNat
  /-- the tables are built -/
  tables : s.tag = Tag.sym ∨ s.tag = Tag.lenExtra ∨ s.tag = Tag.dsym ∨ s.tag = Tag.distExtra ∨ s.tag = Tag.copy → TablesOk s
  /-- CUR is a length symbol -/
  lenExtra : s.tag = Tag.lenExtra → 257 ≤ s.cur.toNat ∧ s.cur.toNat ≤ 285
  /-- a copy length waits for its distance -/
  mlen : s.tag = Tag.dsym ∨ s.tag = Tag.distExtra → MlenOk s
  /-- DSYM is a valid distance symbol -/
  distExtra : s.tag = Tag.distExtra → s.dsym.toNat < 30
  /-- the copy has a byte left and its source was produced in this stream (R47(e)) -/
  copy : s.tag = Tag.copy → 1 ≤ s.rem.toNat ∧ s.rem.toNat ≤ 258 ∧ 1 ≤ s.dist.toNat ∧ s.dist.toNat ≤ s.hist.toNat

/-- The memories are in canonical form and list only indices that exist (R40, R41, R82). -/
structure MemoriesOk (s : State) : Prop where
  win : Memory.wf s.win
  tLL : Memory.wf s.tLL
  tD : Memory.wf s.tD
  tCL : Memory.wf s.tCL
  clens : Memory.wf s.clens
  lens : Memory.wf s.lens
  winBound : ∀ c ∈ s.win, c.1 < Config.winSize
  tLLBound : ∀ c ∈ s.tLL, c.1 < Config.tLLSize
  tDBound : ∀ c ∈ s.tD, c.1 < Config.tDSize
  tCLBound : ∀ c ∈ s.tCL, c.1 < Config.tCLSize
  clensBound : ∀ c ∈ s.clens, c.1 < Config.clSyms
  lensBound : ∀ c ∈ s.lens, c.1 < Config.lensSize

/-- The invariant of the machine: R47(a) and (b), (d) and (e) in the phases of TAG that rest on them, and the written part of
WIN. Of R47(c), which counts the bytes produced, State holds no count: only WPOS ≤ HIST ≤ 32768 and `full` are here. -/
structure Inv (s : State) : Prop where
  /-- no rule writes a code above 23 (R32) -/
  tag : s.tag.toNat ≤ 23
  /-- an OPEN never sets VENDOR (R601) -/
  vendor : s.vendor = false
  /-- NBITS ≤ 23 (R47(a)) -/
  nbits : s.acc.length ≤ 23
  /-- IPOS ≤ SLEN (R35) -/
  ipos : s.ipos ≤ s.span.length
  /-- HIST is saturated at 32768 (R39) -/
  hist : s.hist.toNat ≤ Config.winSize
  /-- the bytes in the window are bytes of the stream -/
  wpos : s.wpos.toNat ≤ s.hist.toNat
  /-- STATUS is one of its codes (R42) -/
  status : s.status ≠ 5#3 ∧ s.status ≠ 6#3
  /-- ERR_KIND is one of its codes (R500) -/
  errKind : s.errKind.toNat ≤ 10
  /-- WPOS < 32768, or a flush is pending (R47(b)) -/
  room : s.wpos.toNat < Config.winSize ∨ s.flushPending = true
  /-- a STEP in progress has acknowledged the flush (R341) -/
  acked : s.stepping = true → s.flushPending = false
  /-- before the stream's end a pending flush is that of a full window (R350; part of R47(c)) -/
  full : s.flushPending = true → s.wpos = 32768#16 ∨ s.tag = Tag.fin ∨ s.tag = Tag.done ∨ s.tag = Tag.failed
  /-- a pending flush hands over WIN[0..WPOS−1] (R340, R278) -/
  span : s.flushPending = true → s.outLen = s.wpos
  /-- the span handed over is written (R437) -/
  spanWritten : s.flushPending = true → Written s.win s.outLen.toNat
  /-- the last HIST bytes of the stream are in WIN while a copy can still read them (R342, R349) -/
  written : s.tag ≠ Tag.fin → s.tag ≠ Tag.done → s.tag ≠ Tag.failed →
    ∀ d, 1 ≤ d → d ≤ s.hist.toNat → (Memory.read s.win (backIndex s d)).isSome
  mem : MemoriesOk s
  phase : Phase s

/-! What a byte produced leaves, for statements. -/

/-- The answer of an instruction that produces the byte `b`, `s` being the state without that byte: WIN differs at WPOS
alone; the byte that fills the window ends the STEP with OutputFull (R340). -/
def PutsByte (b : Byte) (s : State) (r : Host.Outcome State Fault Refusal) : Prop :=
  ∃ w : List Host.Cell,
    (∀ a, Memory.read w a = if a = s.wpos.toNat then some b else Memory.read s.win a) ∧
    r = .next
      (if s.wpos.toNat + 1 = 32768 then
        endStep Status.outputFull { s with
          win := w
          wpos := 32768#16
          hist := BitVec.ofNat 16 (min (s.hist.toNat + 1) 32768)
          crc := crcUpdate s.crc b
          outLen := 32768#16
          flushPending := true }
      else
        afterContinue { s with
          win := w
          wpos := s.wpos + 1#16
          hist := BitVec.ofNat 16 (min (s.hist.toNat + 1) 32768)
          crc := crcUpdate s.crc b })

/-! Runs. -/

/-- `n` executions of one instruction, one after the other, none of them a stop. -/
def ExecTimes (i : Instr) : Nat → State → State → Prop
  | 0, s, t => t = s
  | n + 1, s, t => ∃ u, exec i s = .next u ∧ ExecTimes i n u t

/-- `n` steps, none of them a stop. -/
def Reaches : Nat → State → State → Prop
  | 0, s, t => t = s
  | n + 1, s, t => ∃ u, step s = .next u ∧ Reaches n u t

end Sys2Proof.Machine
end

