-- ==== Sys2Proof/Certificates/Slice0/Obligations.lean ====
section
/-! DEFINITION. The statements for the provers, one per obligation of OBLIGATIONS.json. Each docstring names the rules of
spec/ it formalises; what is the model's own choice is named with its log entry. -/

open Sys2Proof Sys2Proof.Machine

/-! Power-on, reset and the command port. -/

/-- Power-on (R600, R46): TAG is UNOPENED and no memory element is written. No command is in progress or pending (the
model's own fields, log entry 7). -/
def Obligations.PowerOnState : Prop :=
  State.reset.tag = Tag.unopened ∧ State.reset.stepping = false ∧ State.reset.port = [] ∧
  (∀ a, Memory.read State.reset.win a = none) ∧ (∀ a, Memory.read State.reset.tLL a = none) ∧
  (∀ a, Memory.read State.reset.tD a = none) ∧ (∀ a, Memory.read State.reset.tCL a = none) ∧
  (∀ a, Memory.read State.reset.clens a = none) ∧ (∀ a, Memory.read State.reset.lens a = none)

/-- The answers in UNOPENED (R600): STEP and SUPPLY return Error(invalid_state), response word 0x2C (its HUFF_REASON field 0
is log entry 6), the four queries are refused, OPEN is accepted. -/
def Obligations.UnopenedCommands : Prop :=
  ∀ (s : State) (span : List Byte) (i : BitVec 16), s.tag = Tag.unopened →
    exec .cmdStep s = .next { s with stepping := false, response := .word 0x2C#32 } ∧
    exec (.cmdSupply span) s = .next { s with stepping := false, response := .word 0x2C#32 } ∧
    exec .cmdIsFinal s = .next { s with response := .refused } ∧
    exec .cmdPosition s = .next { s with response := .refused } ∧
    exec (.cmdReadOut i) s = .next { s with response := .refused } ∧
    exec .cmdReadCrc s = .next { s with response := .refused } ∧
    ∀ ph nla ovr, ∃ t, exec (.cmdOpen span ph nla false ovr) s = .next t ∧
      t.tag = if ph then Tag.zhdr else Tag.bhdr

/-- OPEN (R432): in every TAG it sets the registers of R601's table and nothing else; with VND = 1 it is refused, and so is an
OPEN word with a bit of 31:7 set. The model's own: the fields `stepping` and `port` (log entry 7), the form of a refusal (log
entry 5). -/
def Obligations.OpenSetsRegisters : Prop :=
  (∀ (s : State) (span : List Byte) (ph nla ovr : Bool),
    exec (.cmdOpen span ph nla false ovr) s = .next { s with
      tag := if ph then 1#5 else 2#5
      parseHeader := ph
      nlenChecked := !nla
      rejectOversize := ovr
      vendor := false
      span := span
      ipos := 0
      acc := []
      inTotal := 0#64
      bfinal := false
      wpos := 0#16
      hist := 0#16
      outLen := 0#16
      flushPending := false
      crc := 0xFFFFFFFF#32
      status := 7#3
      errKind := 0#4
      huffReason := 0#2
      stepping := false
      response := .word 7#32 }) ∧
  (∀ (s : State) (span : List Byte) (ph nla ovr : Bool),
    exec (.cmdOpen span ph nla true ovr) s = .next { s with response := .refused }) ∧
  (∀ (s : State) (w : Word32) (span : List Byte) (cs : List Command), s.stepping = false → s.port = ⟨w, span⟩ :: cs →
    w.extractLsb' 0 3 = 0#3 → w >>> 7 ≠ 0#32 → step s = .next { s with port := cs, response := .refused })

/-- Refused commands (R439): CMD = 7, a bit that R135 marks zero, an OPEN with VND = 1. Nothing changes
but the model's own: the command leaves the port (log entry 7) and the response is `refused` (log entry 5). -/
def Obligations.RefusedCommands : Prop :=
  (∀ (s : State) (c : Command) (cs : List Command), s.stepping = false → s.port = c :: cs →
    (c.word.extractLsb' 0 3 = 7#3 ∨
      (c.word.extractLsb' 0 3 = 0#3 ∧ (c.word.getLsbD 5 = true ∨ c.word >>> 7 ≠ 0#32)) ∨
      (c.word.extractLsb' 0 3 = 5#3 ∧ c.word.extractLsb' 3 13 ≠ 0#13) ∨
      (c.word.extractLsb' 0 3 ≠ 0#3 ∧ c.word.extractLsb' 0 3 ≠ 5#3 ∧ c.word >>> 3 ≠ 0#32)) →
    step s = .next { s with port := cs, response := .refused }) ∧
  (∀ (s : State) (rest : BitVec 29), exec (.cmdReserved rest) s = .next { s with response := .refused })

/-- STEP up to its loop (R341 and the lines of R431 before the loop): on UNOPENED, DONE and FAILED it answers invalid_state
and no register changes; a TAG of 24 to 31 is fatal; otherwise the pending flush is acknowledged, WIN is kept, and the
sequencer runs. The model's own: the field `stepping` (log entry 7), and that the answer is the word 0x2C, its HUFF_REASON
field 0 whatever the register holds (log entry 6), and the fatal answer's OUT_LEN field 0 (log entry 8). -/
def Obligations.StepAccepted : Prop :=
  ∀ s : State, exec .cmdStep s = .next
    (if s.tag = 0#5 ∨ s.tag = 22#5 ∨ s.tag = 23#5 then { s with stepping := false, response := .word 0x2C#32 }
    else if 24 ≤ s.tag.toNat then fatal .invalidState s
    else if s.flushPending = true then { s with wpos := 0#16, outLen := 0#16, flushPending := false, stepping := true }
    else { s with stepping := true })

/-- The TAG5 rows that name no micro-operation (R431, R501): UNOPENED, DONE and FAILED answer invalid_state and change no
register; codes 24 to 31 enter fatal(invalid_state). The model's own: the field `stepping` (log entry 7), the answer's
HUFF_REASON field 0 whatever the register holds (log entry 6), the fatal answer's OUT_LEN field 0 (log entry 8). -/
def Obligations.TagsWithoutMicroOperation : Prop :=
  ∀ (s : State) (low : BitVec 3),
    exec .tagUnopened s = .next { s with stepping := false, response := .word 0x2C#32 } ∧
    exec .tagDone s = .next { s with stepping := false, response := .word 0x2C#32 } ∧
    exec .tagFailed s = .next { s with stepping := false, response := .word 0x2C#32 } ∧
    exec (.tagReserved low) s = .next { s with
      tag := 23#5, errKind := 5#4, status := 4#3, stepping := false
      response := .word (responseWord 4#3 5#4 s.huffReason s.outLen) }

/-- SUPPLY (R433, R503). The model's own: the field `stepping` (log entry 7); that the answer on a terminal TAG is the word 0x2C,
its HUFF_REASON field 0 whatever the register holds (log entry 6); that the accepted case's word has STATUS 7, the error
registers and an OUT_LEN field 0 (log entry 8). -/
def Obligations.SupplySpan : Prop :=
  ∀ (s : State) (span : List Byte), exec (.cmdSupply span) s = .next
    (if s.tag = Tag.unopened ∨ s.tag = Tag.done ∨ s.tag = Tag.failed then
      { s with stepping := false, response := .word 0x2C#32 }
    else if s.ipos < s.span.length then fatal .invalidParameter s
    else { s with span := span, ipos := 0, response := .word (responseWord 7#3 s.errKind s.huffReason s.outLen) })

/-- IS_FINAL (R435): BFINAL; refused in UNOPENED (log entry 5); in FAILED the free value of log entry 2. -/
def Obligations.IsFinalAnswer : Prop :=
  ∀ s : State, exec .cmdIsFinal s = .next
    (if s.tag = Tag.unopened then { s with response := .refused }
    else if s.tag = Tag.failed then { s with response := .final (Config.freeFinal s.draws), draws := s.draws + 1 }
    else { s with response := .final s.bfinal })

/-- POSITION (R436, R206): c = 8·IN_TOTAL − NBITS, floor-divided by 8 (R10); refused in UNOPENED (its form is log entry 5);
in FAILED the free values of log entry 2; the widths on which c wraps are log entry 11. -/
def Obligations.PositionAnswer : Prop :=
  ∀ s : State, exec .cmdPosition s = .next
    (if s.tag = Tag.unopened then { s with response := .refused }
    else if s.tag = Tag.failed then
      { s with
        response := .position (Config.freePosBytes s.draws) (Config.freePosBits s.draws)
        draws := s.draws + 1 }
    else
      { s with
        response := .position (BitVec.ofInt 64 ((8 * (s.inTotal.toNat : Int) - (s.acc.length : Int)) / 8))
          (BitVec.ofInt 3 ((8 * (s.inTotal.toNat : Int) - (s.acc.length : Int)) % 8)) })

/-- READ_OUT(i) (R437): WIN[i] while a flush is pending, i < OUT_LEN and TAG is neither UNOPENED nor FAILED; else refused,
in the form of log entry 5. Under the invariant the byte is there. -/
def Obligations.ReadOutByte : Prop :=
  (∀ (s : State) (i : BitVec 16) (b : Byte), s.flushPending = true → s.tag ≠ Tag.unopened → s.tag ≠ Tag.failed →
    i.toNat < s.outLen.toNat → Memory.read s.win i.toNat = some b →
    exec (.cmdReadOut i) s = .next { s with response := .outByte b }) ∧
  (∀ (s : State) (i : BitVec 16),
    s.flushPending = false ∨ s.tag = Tag.unopened ∨ s.tag = Tag.failed ∨ s.outLen.toNat ≤ i.toNat →
    exec (.cmdReadOut i) s = .next { s with response := .refused }) ∧
  (∀ (s : State) (i : BitVec 16), Inv s → s.flushPending = true → i.toNat < s.outLen.toNat →
    ∃ b, Memory.read s.win i.toNat = some b)

/-- READ_CRC (R438): CRC ^ 0xFFFFFFFF in DONE; refused in UNOPENED (log entry 5); elsewhere the free value of log entry 2. -/
def Obligations.ReadCrcAnswer : Prop :=
  ∀ s : State, exec .cmdReadCrc s = .next
    (if s.tag = Tag.unopened then { s with response := .refused }
    else if s.tag = Tag.done then { s with response := .crc (s.crc ^^^ 0xFFFFFFFF#32) }
    else { s with response := .crc (Config.freeCrc s.draws), draws := s.draws + 1 })

/-- A step runs the decoded instruction: TAG's micro-operation while a STEP is in progress (R431, R32), else the first command
of the port, which leaves the port (R430); an idle core holds its state (R512). -/
def Obligations.StepRunsDecoded : Prop :=
  (∀ s : State, s.stepping = true → step s = exec (decodeTag s.tag) s) ∧
  (∀ (s : State) (c : Command) (cs : List Command) (i : Instr), s.stepping = false → s.port = c :: cs →
    decode .cmd32 c.word.toNat c.span = .ok i → step s = exec i { s with port := cs }) ∧
  (∀ s : State, s.stepping = false → s.port = [] → step s = .next s)

/-- What STEP does with each outcome of a micro-step (R431, R434): `continue` draws YIELD (log entry 1) and returns Progress
when it is true; an event and a suspend return their status; an error enters the fatal state. The model's own: the field
`stepping` (log entry 7), the response's OUT_LEN field 0 unless STATUS is 3 (log entry 8). -/
def Obligations.StepEndings : Prop :=
  ∀ s : State,
    finish (.cont s) = .next
      (if Config.yieldDraw s.draws = true then
        { s with
          status := 0#3, stepping := false, draws := s.draws + 1
          response := .word (responseWord 0#3 s.errKind s.huffReason s.outLen) }
      else { s with draws := s.draws + 1 }) ∧
    finish (.event .blockComplete s) = .next { s with
      status := 1#3, stepping := false, response := .word (responseWord 1#3 s.errKind s.huffReason s.outLen) } ∧
    finish (.suspend s) = .next { s with
      status := 2#3, stepping := false, response := .word (responseWord 2#3 s.errKind s.huffReason s.outLen) } ∧
    finish (.event .outputFull s) = .next { s with
      status := 3#3, stepping := false, response := .word (responseWord 3#3 s.errKind s.huffReason s.outLen) } ∧
    ∀ k, finish (.raise k s) = .next (fatal k s)

/-- fatal(k) (R503): TAG, ERR_KIND and STATUS are written, the response carries the error; then STEP and SUPPLY answer
invalid_state, and only a command word of OPEN leaves FAILED. HUFF_REASON and everything else is kept (R504, log entry 16). The
model's own: the later answer's HUFF_REASON field 0 whatever the register holds (log entry 6), the error answer's OUT_LEN field
0 (log entry 8), the field `stepping` (log entry 7). -/
def Obligations.FatalEntry : Prop :=
  (∀ (k : ErrKind) (s : State), fatal k s = { s with
    tag := 23#5, errKind := errCode k, status := 4#3, stepping := false
    response := .word (responseWord 4#3 (errCode k) s.huffReason s.outLen) }) ∧
  (∀ (k : ErrKind) (s : State) (span : List Byte),
    exec .cmdStep (fatal k s) = .next { fatal k s with response := .word 0x2C#32 } ∧
    exec (.cmdSupply span) (fatal k s) = .next { fatal k s with response := .word 0x2C#32 }) ∧
  (∀ s t : State, s.tag = Tag.failed → (∀ c cs, s.port = c :: cs → c.word.extractLsb' 0 3 ≠ 0#3) → step s = .next t →
    t.tag = Tag.failed)

/-! The bit reader. -/

/-- PULL(n) (R201): it moves the least number of whole bytes that makes NBITS ≥ n, or all there are; each byte's bits enter
ACC least significant first; IPOS and IN_TOTAL count the bytes, and nothing else changes. -/
def Obligations.PullMovesBytes : Prop :=
  ∀ (n : Nat) (s : State),
    pull n s = { s with
      acc := s.acc ++ ((unread s).take ((n - s.acc.length + 7) / 8)).flatMap byteBits
      ipos := s.ipos + min ((n - s.acc.length + 7) / 8) (unread s).length
      inTotal := s.inTotal + BitVec.ofNat 64 (min ((n - s.acc.length + 7) / 8) (unread s).length) }

/-- A retried request sees the bits it would have seen with one span (R208, R209): once the span is used up, the request
after a SUPPLY of `bs` leaves the same ACC and IN_TOTAL as the request over the two spans joined, and gives the same value or
suspends alike. -/
def Obligations.RetryAfterSupply : Prop :=
  ∀ (n : Nat) (s : State) (bs : List Byte), (pull n s).ipos = s.span.length →
    (pull n { pull n s with span := bs, ipos := 0 }).acc = (pull n { s with span := s.span ++ bs }).acc ∧
    (pull n { pull n s with span := bs, ipos := 0 }).inTotal = (pull n { s with span := s.span ++ bs }).inTotal ∧
    avail { pull n s with span := bs, ipos := 0 } = avail { s with span := s.span ++ bs } ∧
    streamValue n { pull n s with span := bs, ipos := 0 } = streamValue n { s with span := s.span ++ bs }

/-- ALIGN() (R205): it drops NBITS mod 8 bits, after which the bits consumed since OPEN are whole bytes. -/
def Obligations.AlignToByte : Prop :=
  ∀ s : State,
    align s = { s with acc := s.acc.drop (s.acc.length % 8) } ∧
    (align s).acc.length % 8 = 0 ∧ positionResidual (align s) = 0#3 ∧
    streamBits (align s) = (streamBits s).drop (s.acc.length % 8) ∧ s.acc.length - (align s).acc.length < 8

/-! The Huffman decoder. -/

/-- BUILD of an alphabet with no used symbol and with one (R232, R233). -/
def Obligations.BuildFewSymbols : Prop :=
  (∀ ls : List Nat, (∀ l ∈ ls, l = 0) → build ls true = .empty ∧ build ls false = .fail .noSymbols) ∧
  (∀ (n i l : Nat) (allowEmpty : Bool), i < n → n ≤ 288 → 1 ≤ l → l ≤ 15 →
    build ((List.replicate n 0).set i l) allowEmpty = .table [BitVec.ofNat 16 i, BitVec.ofNat 16 i]) ∧
  (∀ (t : Memory Entry) (v a : Nat),
    Memory.read (builtTable (.table [BitVec.ofNat 16 v, BitVec.ofNat 16 v]) t) a =
      if a < 2 then some (BitVec.ofNat 16 v) else Memory.read t a) ∧
  (∀ t : Memory Entry, builtTable .empty t = t)

/-- BUILD of two or more used symbols, derived from R234, R235 and R236: it succeeds, with R236's entries, exactly when
Σ cnt[i]·2^(15−i) = 2^15 (R235's sentence, itself marked as derived from R234); a larger sum is too_many_symbols, a smaller one
incomplete_tree. -/
def Obligations.BuildCompleteness : Prop :=
  ∀ (ls : List Nat) (allowEmpty : Bool), 2 ≤ usedCount ls →
    build ls allowEmpty =
      if 2 ^ 15 < ((List.range 15).map (fun i => lenCount ls (i + 1) * 2 ^ (14 - i))).sum then .fail .tooManySymbols
      else if ((List.range 15).map (fun i => lenCount ls (i + 1) * 2 ^ (14 - i))).sum < 2 ^ 15 then .fail .incompleteTree
      else .table (tableEntries ls)

/-- A built table decodes every symbol by its canonical code, most significant bit first, after exactly its code length of
bits (R237(b), R243). -/
def Obligations.CanonicalCodeDecodes : Prop :=
  ∀ (ls : List Nat) (allowEmpty : Bool) (t : Memory Entry) (i : Nat),
    build ls allowEmpty = .table (tableEntries ls) → 2 ≤ usedCount ls → ls.length ≤ 288 → i < ls.length →
    1 ≤ ls.getD i 0 → ls.getD i 0 ≤ 15 →
    (codeBits (ls.getD i 0) (codeValue ls i)).length = ls.getD i 0 ∧
    followCode (builtTable (build ls allowEmpty) t) 0 (codeBits (ls.getD i 0) (codeValue ls i)) = some i

/-! The micro-operations of headers, stored and fixed blocks. -/

/-- ZHDR (R420): V is the first byte times 256 plus the second; a header without FDICT is dropped, one with FDICT raises
custom_dictionary, anything else is left for the block header; it suspends until 16 bits are buffered. -/
def Obligations.ZlibHeaderStep : Prop :=
  ∀ s : State, exec .tagZhdr s = .next
    (if avail s < 16 then endStep 2#3 (pull 16 s)
    else
      let v := bitsValue ((streamBits s).take 8) * 256 + bitsValue (((streamBits s).drop 8).take 8)
      if v &&& 0x8F00 = 0x0800 ∧ v % 31 = 0 then
        if v &&& 0x20 ≠ 0 then fatal .customDictionary (pull 16 s)
        else afterContinue { afterRead 16 s with tag := Tag.bhdr }
      else afterContinue { pull 16 s with tag := Tag.bhdr })

/-- BHDR (R270), for a stream of the RFC dialect, the only one OPEN accepts (R601; `Inv` keeps VENDOR = 0). -/
def Obligations.BlockHeaderStep : Prop :=
  ∀ s : State, s.vendor = false → exec .tagBhdr s = .next
    (if avail s < 3 then endStep 2#3 (pull 3 s)
    else
      let h := streamValue 3 s
      let u := { afterRead 3 s with bfinal := decide (h % 2 = 1), btype := BitVec.ofNat 2 (h / 2) }
      if h / 2 = 0 then afterContinue { u with acc := u.acc.drop (u.acc.length % 8), tag := Tag.stLen }
      else if h / 2 = 1 then afterContinue { u with tag := Tag.fxBuild }
      else if h / 2 = 2 then afterContinue { u with tag := Tag.dyHlit }
      else fatal .invalidBlockCode u)

/-- The vendor dialect has no meaning (R271): an OPEN that asks for it is refused, and BHDR with VENDOR = 1, which no OPEN
leaves, stops by name. -/
def Obligations.VendorDialectStops : Prop :=
  (∀ (s : State) (span : List Byte) (ph nla ovr : Bool),
    exec (.cmdOpen span ph nla true ovr) s = .next { s with response := .refused }) ∧
  (∀ s : State, s.vendor = true → exec .tagBhdr s = .fault .vendorDialect)

/-- ST_LEN (R272): LEN is the next 16 bits; with NLEN checked the sequencer goes to ST_NLEN, else REM is LEN and an empty
block ends at once. -/
def Obligations.StoredLengthStep : Prop :=
  ∀ s : State, exec .tagStLen s = .next
    (if avail s < 16 then endStep 2#3 (pull 16 s)
    else
      let len := BitVec.ofNat 16 (streamValue 16 s)
      if s.nlenChecked = true then afterContinue { afterRead 16 s with storedLen := len, tag := Tag.stNlen }
      else afterContinue { afterRead 16 s with
        storedLen := len, rem := len, tag := if len = 0#16 then Tag.blkEnd else Tag.stCopy })

/-- ST_NLEN (R273): the complement of LEN is checked once its 16 bits are read. -/
def Obligations.StoredComplementStep : Prop :=
  ∀ s : State, exec .tagStNlen s = .next
    (if avail s < 16 then endStep 2#3 (pull 16 s)
    else if streamValue 16 s = 65535 - s.storedLen.toNat then
      afterContinue { afterRead 16 s with
        rem := s.storedLen, tag := if s.storedLen = 0#16 then Tag.blkEnd else Tag.stCopy }
    else fatal .corruptStream (afterRead 16 s))

/-- ST_COPY (R274): the next byte is produced, REM counts down, and at 0 the block ends; without a byte nothing changes but
the pull. -/
def Obligations.StoredCopyStep : Prop :=
  ∀ s : State,
    (avail s < 8 → exec .tagStCopy s = .next (endStep 2#3 (pull 8 s))) ∧
    (8 ≤ avail s → s.wpos.toNat < 32768 →
      PutsByte (BitVec.ofNat 8 (streamValue 8 s))
        { afterRead 8 s with
          rem := s.rem - 1#16
          tag := if s.rem = 1#16 then Tag.blkEnd else s.tag }
        (exec .tagStCopy s))

/-- FX_BUILD, derived from R276, R277 and R132 (R132 and the success of both builds are the spec's own inferences): the fixed
tables are installed for every fixed block, whatever the tables held: the code of each LL symbol and of each of the 32 D symbols
is R132's, most significant bit first; D_EMPTY is 0 and the sequencer goes to SYM. -/
def Obligations.FixedTablesStep : Prop :=
  ∀ s : State, ∃ tl td : Memory Entry,
    exec .tagFxBuild s = .next (afterContinue { s with tLL := tl, tD := td, dEmpty := false, tag := Tag.sym }) ∧
    (∀ v, v < 288 → followCode tl 0
      (if v < 144 then codeBits 8 (0x30 + v)
      else if v < 256 then codeBits 9 (0x190 + v - 144)
      else if v < 280 then codeBits 7 (v - 256)
      else codeBits 8 (0xC0 + v - 280)) = some v) ∧
    (∀ d, d < 32 → followCode td 0 (codeBits 5 d) = some d)

/-- BLK_END and FIN (R278, R279): a non-final block reports BlockComplete; a final one first hands over the partial window,
if there is one, and reports BlockComplete from FIN. -/
def Obligations.BlockEndSteps : Prop :=
  ∀ s : State,
    exec .tagBlkEnd s = .next
      (if s.bfinal = false then endStep 1#3 { s with tag := Tag.bhdr }
      else if 0 < s.wpos.toNat then endStep 3#3 { s with outLen := s.wpos, flushPending := true, tag := Tag.fin }
      else endStep 1#3 { s with tag := Tag.done }) ∧
    exec .tagFin s = .next (endStep 1#3 { s with tag := Tag.done })

/-! The micro-operations of a dynamic header. -/

/-- DY_HLIT and DY_HDIST (R300, R301): the counts are the fields plus 257 and plus 1; under REJECT a count above 286 or 30 is
invalid_symbol as soon as it is read. -/
def Obligations.CountSteps : Prop :=
  ∀ s : State,
    exec .tagDyHlit s = .next
      (if avail s < 5 then endStep 2#3 (pull 5 s)
      else
        let u := { afterRead 5 s with hlit := BitVec.ofNat 9 (streamValue 5 s + 257) }
        if s.rejectOversize = true ∧ 286 < streamValue 5 s + 257 then fatal .invalidSymbol u
        else afterContinue { u with tag := Tag.dyHdist }) ∧
    exec .tagDyHdist s = .next
      (if avail s < 5 then endStep 2#3 (pull 5 s)
      else
        let u := { afterRead 5 s with hdist := BitVec.ofNat 6 (streamValue 5 s + 1) }
        if s.rejectOversize = true ∧ 30 < streamValue 5 s + 1 then fatal .invalidSymbol u
        else afterContinue { u with tag := Tag.dyHclen })

/-- DY_HCLEN (R302): HCLEN is the field plus 4, K is 0 and all 19 entries of CLENS are 0. -/
def Obligations.ClearLengthsStep : Prop :=
  ∀ s : State,
    (avail s < 4 → exec .tagDyHclen s = .next (endStep 2#3 (pull 4 s))) ∧
    (4 ≤ avail s → ∃ m : Memory (BitVec 3),
      (∀ a, Memory.read m a = if a < 19 then some 0#3 else Memory.read s.clens a) ∧
      exec .tagDyHclen s = .next (afterContinue { afterRead 4 s with
        hclen := BitVec.ofNat 5 (streamValue 4 s + 4), k := 0#5, clens := m, tag := Tag.dyCll }))

/-- DY_CLL (R303): the K-th length belongs to CL symbol ROM_CLORDER[K] (R308), and at K = HCLEN the table is built. -/
def Obligations.CodeLengthLengthStep : Prop :=
  ∀ s : State, s.k.toNat < 19 →
    (avail s < 3 → exec .tagDyCll s = .next (endStep 2#3 (pull 3 s))) ∧
    (3 ≤ avail s → ∃ m : Memory (BitVec 3),
      (∀ a, Memory.read m a =
        if some a = [16, 17, 18, 0, 8, 7, 9, 6, 10, 5, 11, 4, 12, 3, 13, 2, 14, 1, 15][s.k.toNat]? then
          some (BitVec.ofNat 3 (streamValue 3 s))
        else Memory.read s.clens a) ∧
      exec .tagDyCll s = .next (afterContinue { afterRead 3 s with
        clens := m, k := s.k + 1#5, tag := if s.k.toNat + 1 = s.hclen.toNat then Tag.dyClbuild else s.tag }))

/-- DY_CLBUILD (R304): BUILD over the 19 entries of CLENS, an empty alphabet not allowed; a failure sets HUFF_REASON and is
fatal, a table is written from T_CL[0] on. -/
def Obligations.CodeLengthTableStep : Prop :=
  ∀ (s : State) (ls : List (BitVec 3)), ls.length = 19 → (∀ i, i < 19 → Memory.read s.clens i = ls[i]?) →
    (∀ r, build (ls.map BitVec.toNat) false = .fail r →
      exec .tagDyClbuild s = .next (fatal .huffmanTableGenFailed { s with huffReason := huffCode r })) ∧
    (∀ es, build (ls.map BitVec.toNat) false = .table es → ∃ t : Memory Entry,
      (∀ a, Memory.read t a = if a < es.length then es[a]? else Memory.read s.tCL a) ∧
      exec .tagDyClbuild s = .next (afterContinue { s with
        tCL := t, j := 0#9, lastLen := 0#4, tag := Tag.dyLsym })) ∧
    build (ls.map BitVec.toNat) false ≠ .empty

/-- DY_LSYM (R305): a symbol up to 15 is the next code length; 16 at J = 0 is invalid_symbol; 16 to 18 go on to their extra
bits; while the code's bits are missing it suspends and consumes nothing. -/
def Obligations.CodeLengthSymbolStep : Prop :=
  ∀ (s : State) (code rest : List Bool) (v : Nat), code.length ≤ 15 → followCode s.tCL 0 code = some v →
    (streamBits s = code ++ rest →
      (v ≤ 15 → s.j.toNat < 320 → ∃ m : Memory (BitVec 4),
        (∀ a, Memory.read m a = if a = s.j.toNat then some (BitVec.ofNat 4 v) else Memory.read s.lens a) ∧
        exec .tagDyLsym s = .next (afterContinue { afterRead code.length s with
          lens := m, lastLen := BitVec.ofNat 4 v, j := s.j + 1#9
          tag := if s.j.toNat + 1 = s.hlit.toNat + s.hdist.toNat then Tag.dyBuild else s.tag })) ∧
      (v = 16 → s.j = 0#9 → exec .tagDyLsym s = .next (fatal .invalidSymbol (afterRead code.length s))) ∧
      (16 ≤ v → v ≤ 18 → (v = 16 → s.j ≠ 0#9) → exec .tagDyLsym s = .next (afterContinue { afterRead code.length s with
        cur := BitVec.ofNat 9 v, tag := Tag.dyLextra }))) ∧
    (streamBits s ++ rest = code → rest ≠ [] →
      exec .tagDyLsym s = .next (endStep 2#3 (pull (avail s + 1) s)))

/-- DY_LEXTRA (R306): 16 repeats LAST_LEN 3 + X times (2 bits), 17 writes 3 + X zeros (3 bits), 18 writes 11 + X zeros
(7 bits); a run past HLIT + HDIST is invalid_symbol, checked after the extra bits; LENS has room, HLIT + HDIST ≤ 320
(R47(d)). -/
def Obligations.RepeatStep : Prop :=
  ∀ (s : State) (e base : Nat) (v : BitVec 4), s.hlit.toNat + s.hdist.toNat ≤ 320 →
    (s.cur = 16#9 ∧ e = 2 ∧ base = 3 ∧ v = s.lastLen) ∨ (s.cur = 17#9 ∧ e = 3 ∧ base = 3 ∧ v = 0#4) ∨
      (s.cur = 18#9 ∧ e = 7 ∧ base = 11 ∧ v = 0#4) →
    (avail s < e → exec .tagDyLextra s = .next (endStep 2#3 (pull e s))) ∧
    (e ≤ avail s → s.hlit.toNat + s.hdist.toNat < s.j.toNat + (base + streamValue e s) →
      exec .tagDyLextra s = .next (fatal .invalidSymbol (afterRead e s))) ∧
    (e ≤ avail s → s.j.toNat + (base + streamValue e s) ≤ s.hlit.toNat + s.hdist.toNat → ∃ m : Memory (BitVec 4),
      (∀ a, Memory.read m a =
        if s.j.toNat ≤ a ∧ a < s.j.toNat + (base + streamValue e s) then some v else Memory.read s.lens a) ∧
      exec .tagDyLextra s = .next (afterContinue { afterRead e s with
        lens := m, lastLen := v, j := BitVec.ofNat 9 (s.j.toNat + (base + streamValue e s))
        tag := if s.j.toNat + (base + streamValue e s) = s.hlit.toNat + s.hdist.toNat then Tag.dyBuild
          else Tag.dyLsym }))

/-- DY_BUILD (R307): the LL table from LENS[0..HLIT−1], an empty alphabet not allowed, then the D table from the next HDIST
lengths, where an empty one sets D_EMPTY and writes nothing; the LL failure is reported first. -/
def Obligations.DynamicTablesStep : Prop :=
  ∀ (s : State) (ll dl : List (BitVec 4)), ll.length = s.hlit.toNat → dl.length = s.hdist.toNat →
    (∀ i, i < s.hlit.toNat → Memory.read s.lens i = ll[i]?) →
    (∀ i, i < s.hdist.toNat → Memory.read s.lens (s.hlit.toNat + i) = dl[i]?) →
    build (ll.map BitVec.toNat) false ≠ .empty ∧
    (∀ r, build (ll.map BitVec.toNat) false = .fail r →
      exec .tagDyBuild s = .next (fatal .huffmanTableGenFailed { s with huffReason := huffCode r })) ∧
    (∀ es, build (ll.map BitVec.toNat) false = .table es → ∃ tl : Memory Entry,
      (∀ a, Memory.read tl a = if a < es.length then es[a]? else Memory.read s.tLL a) ∧
      (∀ r, build (dl.map BitVec.toNat) true = .fail r →
        exec .tagDyBuild s = .next (fatal .huffmanTableGenFailed { s with tLL := tl, huffReason := huffCode r })) ∧
      (build (dl.map BitVec.toNat) true = .empty →
        exec .tagDyBuild s = .next (afterContinue { s with tLL := tl, dEmpty := true, tag := Tag.sym })) ∧
      (∀ ds, build (dl.map BitVec.toNat) true = .table ds → ∃ td : Memory Entry,
        (∀ a, Memory.read td a = if a < ds.length then ds[a]? else Memory.read s.tD a) ∧
        exec .tagDyBuild s = .next (afterContinue { s with
          tLL := tl, tD := td, dEmpty := false, tag := Tag.sym })))

/-! The micro-operations of the symbol phase. -/

/-- SYM (R343): a symbol below 256 is put and TAG stays, 256 ends the block, 286 and 287 are invalid_symbol, a length symbol
goes on to its extra bits; while the code's bits are missing it suspends and consumes nothing. -/
def Obligations.SymbolStep : Prop :=
  ∀ (s : State) (code rest : List Bool) (v : Nat), code.length ≤ 15 → followCode s.tLL 0 code = some v →
    (streamBits s = code ++ rest →
      (v < 256 → s.wpos.toNat < 32768 →
        PutsByte (BitVec.ofNat 8 v) (afterRead code.length s) (exec .tagSym s)) ∧
      (v = 256 → exec .tagSym s = .next (afterContinue { afterRead code.length s with tag := Tag.blkEnd })) ∧
      (285 < v → exec .tagSym s = .next (fatal .invalidSymbol (afterRead code.length s))) ∧
      (257 ≤ v → v ≤ 285 → exec .tagSym s = .next (afterContinue { afterRead code.length s with
        cur := BitVec.ofNat 9 v, tag := Tag.lenExtra }))) ∧
    (streamBits s ++ rest = code → rest ≠ [] → exec .tagSym s = .next (endStep 2#3 (pull (avail s + 1) s)))

/-- LEN_EXTRA (R344): MLEN is the base of CUR's row of ROM_LEN plus its extra bits. -/
def Obligations.LengthExtraStep : Prop :=
  ∀ (s : State) (b e : Nat), romLen s.cur.toNat = some (b, e) →
    exec .tagLenExtra s = .next
      (if avail s < e then endStep 2#3 (pull e s)
      else afterContinue { afterRead e s with mlen := BitVec.ofNat 9 (b + streamValue e s), tag := Tag.dsym })

/-- DSYM (R345): with an empty D table it raises invalid_symbol before any bit is read; 30 and 31 are invalid_symbol; another
symbol goes on to its extra bits; while the code's bits are missing it suspends and consumes nothing. -/
def Obligations.DistanceSymbolStep : Prop :=
  (∀ s : State, s.dEmpty = true → exec .tagDsym s = .next (fatal .invalidSymbol s)) ∧
  (∀ (s : State) (code rest : List Bool) (v : Nat), s.dEmpty = false → code.length ≤ 15 →
    followCode s.tD 0 code = some v →
    (streamBits s = code ++ rest →
      exec .tagDsym s = .next
        (if 30 ≤ v then fatal .invalidSymbol (afterRead code.length s)
        else afterContinue { afterRead code.length s with dsym := BitVec.ofNat 5 v, tag := Tag.distExtra })) ∧
    (streamBits s ++ rest = code → rest ≠ [] → exec .tagDsym s = .next (endStep 2#3 (pull (avail s + 1) s))))

/-- DIST_EXTRA (R346): DIST is the base of DSYM's row of ROM_DIST plus its extra bits; a distance above HIST is
invalid_distance, checked after the extra bits; else the copy of MLEN bytes begins. -/
def Obligations.DistanceExtraStep : Prop :=
  ∀ (s : State) (b e : Nat), romDist s.dsym.toNat = some (b, e) →
    exec .tagDistExtra s = .next
      (if avail s < e then endStep 2#3 (pull e s)
      else
        let u := { afterRead e s with dist := BitVec.ofNat 16 (b + streamValue e s) }
        if s.hist.toNat < b + streamValue e s then fatal .invalidDistance u
        else afterContinue { u with rem := BitVec.ofNat 16 s.mlen.toNat, tag := Tag.copy })

/-- COPY (R347): the byte at (WPOS − DIST) mod 32768, read before the write, is put; REM counts down, and at 0 the sequencer
goes back to SYM. -/
def Obligations.CopyStep : Prop :=
  ∀ (s : State) (b : Byte), s.wpos.toNat < 32768 →
    Memory.read s.win ((s.wpos.toNat + 65536 - s.dist.toNat) % 32768) = some b →
    PutsByte b { s with rem := s.rem - 1#16, tag := if s.rem = 1#16 then Tag.sym else s.tag } (exec .tagCopy s)

/-! The tokens. A token row acts on the state in which its code and its extra bits have been consumed (log entry 9): a
ZHDR16 row, whose micro-operation peeks, on the state in which its bits have been peeked. -/

/-- The ZHDR16 and BHDR3 rows (R420, R270): a header without FDICT drops its 16 bits; one with FDICT is fatal; no header, no
effect but TAG; a block header writes BFINAL and BTYPE, aligns for BTYPE = 0, and is fatal for BTYPE = 3. -/
def Obligations.HeaderTokens : Prop :=
  ∀ (s : State) (v : BitVec 16) (final : Bool),
    exec (.zlibHdr v) s = .next (afterContinue { s with acc := s.acc.drop 16, tag := Tag.bhdr }) ∧
    exec (.zlibFdict v) s = .next (fatal .customDictionary s) ∧
    exec (.rawNoHdr v) s = .next (afterContinue { s with tag := Tag.bhdr }) ∧
    exec (.blkStored final) s = .next (afterContinue { s with
      bfinal := final, btype := 0#2, acc := s.acc.drop (s.acc.length % 8), tag := Tag.stLen }) ∧
    exec (.blkFixed final) s = .next (afterContinue { s with bfinal := final, btype := 1#2, tag := Tag.fxBuild }) ∧
    exec (.blkDynamic final) s = .next (afterContinue { s with bfinal := final, btype := 2#2, tag := Tag.dyHlit }) ∧
    exec (.blkReserved final) s = .next (fatal .invalidBlockCode { s with bfinal := final, btype := 3#2 })

/-- The STORED and DYN rows (R272, R273, R274, R300, R301, R302, R303). -/
def Obligations.FieldTokens : Prop :=
  ∀ s : State,
    (∀ v, exec (.len16 v) s = .next
      (if s.nlenChecked = true then afterContinue { s with storedLen := v, tag := Tag.stNlen }
      else afterContinue { s with
        storedLen := v, rem := v, tag := if v = 0#16 then Tag.blkEnd else Tag.stCopy })) ∧
    (∀ v, exec (.nlen16 v) s = .next
      (if v.toNat = 65535 - s.storedLen.toNat then afterContinue { s with
        rem := s.storedLen, tag := if s.storedLen = 0#16 then Tag.blkEnd else Tag.stCopy }
      else fatal .corruptStream s)) ∧
    (∀ b, s.wpos.toNat < 32768 → PutsByte b
      { s with rem := s.rem - 1#16, tag := if s.rem = 1#16 then Tag.blkEnd else s.tag } (exec (.storedByte b) s)) ∧
    (∀ v, exec (.hlit5 v) s = .next
      (if s.rejectOversize = true ∧ 286 < v.toNat + 257 then
        fatal .invalidSymbol { s with hlit := BitVec.ofNat 9 (v.toNat + 257) }
      else afterContinue { s with hlit := BitVec.ofNat 9 (v.toNat + 257), tag := Tag.dyHdist })) ∧
    (∀ v, exec (.hdist5 v) s = .next
      (if s.rejectOversize = true ∧ 30 < v.toNat + 1 then
        fatal .invalidSymbol { s with hdist := BitVec.ofNat 6 (v.toNat + 1) }
      else afterContinue { s with hdist := BitVec.ofNat 6 (v.toNat + 1), tag := Tag.dyHclen })) ∧
    (∀ v, ∃ m : Memory (BitVec 3),
      (∀ a, Memory.read m a = if a < 19 then some 0#3 else Memory.read s.clens a) ∧
      exec (.hclen4 v) s = .next (afterContinue { s with
        hclen := BitVec.ofNat 5 (v.toNat + 4), k := 0#5, clens := m, tag := Tag.dyCll })) ∧
    (∀ v, s.k.toNat < 19 → ∃ m : Memory (BitVec 3),
      (∀ a, Memory.read m a =
        if some a = [16, 17, 18, 0, 8, 7, 9, 6, 10, 5, 11, 4, 12, 3, 13, 2, 14, 1, 15][s.k.toNat]? then some v
        else Memory.read s.clens a) ∧
      exec (.cll3 v) s = .next (afterContinue { s with
        clens := m, k := s.k + 1#5, tag := if s.k.toNat + 1 = s.hclen.toNat then Tag.dyClbuild else s.tag }))

/-- The CLSYM rows (R305, R306): CL_LEN_n writes the length n at LENS[J]; REP16 repeats LAST_LEN 3 + x times, and at J = 0 is
invalid_symbol; ZERO17 and ZERO18 write 3 + x and 11 + x zeros; a run past HLIT + HDIST is invalid_symbol. -/
def Obligations.CodeLengthTokens : Prop :=
  (∀ (s : State) (i : Instr) (n : BitVec 4),
    (i, n) ∈ [(.clLen0, 0#4), (.clLen1, 1#4), (.clLen2, 2#4), (.clLen3, 3#4), (.clLen4, 4#4), (.clLen5, 5#4), (.clLen6, 6#4),
      (.clLen7, 7#4), (.clLen8, 8#4), (.clLen9, 9#4), (.clLen10, 10#4), (.clLen11, 11#4), (.clLen12, 12#4),
      (.clLen13, 13#4), (.clLen14, 14#4), (.clLen15, 15#4)] →
    s.j.toNat < 320 → ∃ m : Memory (BitVec 4),
      (∀ a, Memory.read m a = if a = s.j.toNat then some n else Memory.read s.lens a) ∧
      exec i s = .next (afterContinue { s with
        lens := m, lastLen := n, j := s.j + 1#9
        tag := if s.j.toNat + 1 = s.hlit.toNat + s.hdist.toNat then Tag.dyBuild else s.tag })) ∧
  (∀ (s : State) (x : BitVec 2), s.j = 0#9 → exec (.rep16 x) s = .next (fatal .invalidSymbol s)) ∧
  (∀ (s : State) (i : Instr) (c : BitVec 9) (n : Nat) (v : BitVec 4), s.hlit.toNat + s.hdist.toNat ≤ 320 →
    (s.j ≠ 0#9 ∧ c = 16#9 ∧ v = s.lastLen ∧ ∃ x : BitVec 2, i = .rep16 x ∧ n = 3 + x.toNat) ∨
      (c = 17#9 ∧ v = 0#4 ∧ ∃ x : BitVec 3, i = .zero17 x ∧ n = 3 + x.toNat) ∨
      (c = 18#9 ∧ v = 0#4 ∧ ∃ x : BitVec 7, i = .zero18 x ∧ n = 11 + x.toNat) →
    (s.hlit.toNat + s.hdist.toNat < s.j.toNat + n → exec i s = .next (fatal .invalidSymbol { s with cur := c })) ∧
    (s.j.toNat + n ≤ s.hlit.toNat + s.hdist.toNat → ∃ m : Memory (BitVec 4),
      (∀ a, Memory.read m a = if s.j.toNat ≤ a ∧ a < s.j.toNat + n then some v else Memory.read s.lens a) ∧
      exec i s = .next (afterContinue { s with
        cur := c, lens := m, lastLen := v, j := BitVec.ofNat 9 (s.j.toNat + n)
        tag := if s.j.toNat + n = s.hlit.toNat + s.hdist.toNat then Tag.dyBuild else Tag.dyLsym })))

/-- The LLSYM rows (R343, R344, R129): LIT puts its byte, EOB ends the block, LEN_s leaves MLEN = LBASE + x of its row, 286 and
287 are invalid_symbol. -/
def Obligations.LiteralLengthTokens : Prop :=
  (∀ (s : State) (b : Byte), s.wpos.toNat < 32768 → PutsByte b s (exec (.lit b) s)) ∧
  (∀ s : State, exec .eob s = .next (afterContinue { s with tag := Tag.blkEnd })) ∧
  (∀ s : State, exec .llInvalid286 s = .next (fatal .invalidSymbol s)) ∧
  (∀ s : State, exec .llInvalid287 s = .next (fatal .invalidSymbol s)) ∧
  (∀ (s : State) (i : Instr) (c l : Nat),
    ((i = .len257 ∧ c = 257 ∧ l = 3) ∨ (i = .len258 ∧ c = 258 ∧ l = 4) ∨ (i = .len259 ∧ c = 259 ∧ l = 5) ∨
      (i = .len260 ∧ c = 260 ∧ l = 6) ∨ (i = .len261 ∧ c = 261 ∧ l = 7) ∨ (i = .len262 ∧ c = 262 ∧ l = 8) ∨
      (i = .len263 ∧ c = 263 ∧ l = 9) ∨ (i = .len264 ∧ c = 264 ∧ l = 10) ∨
      (∃ x : BitVec 1, i = .len265 x ∧ c = 265 ∧ l = 11 + x.toNat) ∨
      (∃ x : BitVec 1, i = .len266 x ∧ c = 266 ∧ l = 13 + x.toNat) ∨
      (∃ x : BitVec 1, i = .len267 x ∧ c = 267 ∧ l = 15 + x.toNat) ∨
      (∃ x : BitVec 1, i = .len268 x ∧ c = 268 ∧ l = 17 + x.toNat) ∨
      (∃ x : BitVec 2, i = .len269 x ∧ c = 269 ∧ l = 19 + x.toNat) ∨
      (∃ x : BitVec 2, i = .len270 x ∧ c = 270 ∧ l = 23 + x.toNat) ∨
      (∃ x : BitVec 2, i = .len271 x ∧ c = 271 ∧ l = 27 + x.toNat) ∨
      (∃ x : BitVec 2, i = .len272 x ∧ c = 272 ∧ l = 31 + x.toNat) ∨
      (∃ x : BitVec 3, i = .len273 x ∧ c = 273 ∧ l = 35 + x.toNat) ∨
      (∃ x : BitVec 3, i = .len274 x ∧ c = 274 ∧ l = 43 + x.toNat) ∨
      (∃ x : BitVec 3, i = .len275 x ∧ c = 275 ∧ l = 51 + x.toNat) ∨
      (∃ x : BitVec 3, i = .len276 x ∧ c = 276 ∧ l = 59 + x.toNat) ∨
      (∃ x : BitVec 4, i = .len277 x ∧ c = 277 ∧ l = 67 + x.toNat) ∨
      (∃ x : BitVec 4, i = .len278 x ∧ c = 278 ∧ l = 83 + x.toNat) ∨
      (∃ x : BitVec 4, i = .len279 x ∧ c = 279 ∧ l = 99 + x.toNat) ∨
      (∃ x : BitVec 4, i = .len280 x ∧ c = 280 ∧ l = 115 + x.toNat) ∨
      (∃ x : BitVec 5, i = .len281 x ∧ c = 281 ∧ l = 131 + x.toNat) ∨
      (∃ x : BitVec 5, i = .len282 x ∧ c = 282 ∧ l = 163 + x.toNat) ∨
      (∃ x : BitVec 5, i = .len283 x ∧ c = 283 ∧ l = 195 + x.toNat) ∨
      (∃ x : BitVec 5, i = .len284 x ∧ c = 284 ∧ l = 227 + x.toNat) ∨ (i = .len285 ∧ c = 285 ∧ l = 258)) →
    exec i s = .next (afterContinue { s with cur := BitVec.ofNat 9 c, mlen := BitVec.ofNat 9 l, tag := Tag.dsym }))

/-- The DSYM rows (R346, R345, R130): DIST_d leaves DIST = DBASE + x of its row and begins the copy of MLEN bytes, or raises
invalid_distance when DIST > HIST; 30 and 31 are invalid_symbol. -/
def Obligations.DistanceTokens : Prop :=
  (∀ s : State, exec .dInvalid30 s = .next (fatal .invalidSymbol s)) ∧
  (∀ s : State, exec .dInvalid31 s = .next (fatal .invalidSymbol s)) ∧
  (∀ (s : State) (i : Instr) (c d : Nat),
    ((i = .dist0 ∧ c = 0 ∧ d = 1) ∨ (i = .dist1 ∧ c = 1 ∧ d = 2) ∨ (i = .dist2 ∧ c = 2 ∧ d = 3) ∨
      (i = .dist3 ∧ c = 3 ∧ d = 4) ∨ (∃ x : BitVec 1, i = .dist4 x ∧ c = 4 ∧ d = 5 + x.toNat) ∨
      (∃ x : BitVec 1, i = .dist5 x ∧ c = 5 ∧ d = 7 + x.toNat) ∨
      (∃ x : BitVec 2, i = .dist6 x ∧ c = 6 ∧ d = 9 + x.toNat) ∨
      (∃ x : BitVec 2, i = .dist7 x ∧ c = 7 ∧ d = 13 + x.toNat) ∨
      (∃ x : BitVec 3, i = .dist8 x ∧ c = 8 ∧ d = 17 + x.toNat) ∨
      (∃ x : BitVec 3, i = .dist9 x ∧ c = 9 ∧ d = 25 + x.toNat) ∨
      (∃ x : BitVec 4, i = .dist10 x ∧ c = 10 ∧ d = 33 + x.toNat) ∨
      (∃ x : BitVec 4, i = .dist11 x ∧ c = 11 ∧ d = 49 + x.toNat) ∨
      (∃ x : BitVec 5, i = .dist12 x ∧ c = 12 ∧ d = 65 + x.toNat) ∨
      (∃ x : BitVec 5, i = .dist13 x ∧ c = 13 ∧ d = 97 + x.toNat) ∨
      (∃ x : BitVec 6, i = .dist14 x ∧ c = 14 ∧ d = 129 + x.toNat) ∨
      (∃ x : BitVec 6, i = .dist15 x ∧ c = 15 ∧ d = 193 + x.toNat) ∨
      (∃ x : BitVec 7, i = .dist16 x ∧ c = 16 ∧ d = 257 + x.toNat) ∨
      (∃ x : BitVec 7, i = .dist17 x ∧ c = 17 ∧ d = 385 + x.toNat) ∨
      (∃ x : BitVec 8, i = .dist18 x ∧ c = 18 ∧ d = 513 + x.toNat) ∨
      (∃ x : BitVec 8, i = .dist19 x ∧ c = 19 ∧ d = 769 + x.toNat) ∨
      (∃ x : BitVec 9, i = .dist20 x ∧ c = 20 ∧ d = 1025 + x.toNat) ∨
      (∃ x : BitVec 9, i = .dist21 x ∧ c = 21 ∧ d = 1537 + x.toNat) ∨
      (∃ x : BitVec 10, i = .dist22 x ∧ c = 22 ∧ d = 2049 + x.toNat) ∨
      (∃ x : BitVec 10, i = .dist23 x ∧ c = 23 ∧ d = 3073 + x.toNat) ∨
      (∃ x : BitVec 11, i = .dist24 x ∧ c = 24 ∧ d = 4097 + x.toNat) ∨
      (∃ x : BitVec 11, i = .dist25 x ∧ c = 25 ∧ d = 6145 + x.toNat) ∨
      (∃ x : BitVec 12, i = .dist26 x ∧ c = 26 ∧ d = 8193 + x.toNat) ∨
      (∃ x : BitVec 12, i = .dist27 x ∧ c = 27 ∧ d = 12289 + x.toNat) ∨
      (∃ x : BitVec 13, i = .dist28 x ∧ c = 28 ∧ d = 16385 + x.toNat) ∨
      (∃ x : BitVec 13, i = .dist29 x ∧ c = 29 ∧ d = 24577 + x.toNat)) →
    exec i s = .next
      (if s.hist.toNat < d then
        fatal .invalidDistance { s with dsym := BitVec.ofNat 5 c, dist := BitVec.ofNat 16 d }
      else afterContinue { s with
        dsym := BitVec.ofNat 5 c, dist := BitVec.ofNat 16 d, rem := BitVec.ofNat 16 s.mlen.toNat, tag := Tag.copy }))

/-- A token row does what its micro-operation does (R139, log entry 9): with the bits at hand, the micro-operation equals the
row the decoder gives for them, run after they are read. The ZHDR16 rows run on the peeked bits. A row's value has the extra
bits above the symbol: the model's numbering (log entry 10). -/
def Obligations.TokensMatchMicroSteps : Prop :=
  (∀ s : State, 16 ≤ avail s → ∃ i,
    decode .zhdr16 (bitsValue ((streamBits s).take 8) * 256 + bitsValue (((streamBits s).drop 8).take 8)) [] = .ok i ∧
    exec .tagZhdr s = exec i (pull 16 s)) ∧
  (∀ (s : State) (m : Instr) (f : Format) (n : Nat), s.vendor = false →
    (m, f, n) ∈ [(.tagBhdr, .bhdr3, 3), (.tagStLen, .storedLen, 16), (.tagStNlen, .storedNlen, 16),
      (.tagStCopy, .storedByte, 8), (.tagDyHlit, .dynHlit, 5), (.tagDyHdist, .dynHdist, 5), (.tagDyHclen, .dynHclen, 4),
      (.tagDyCll, .dynCll, 3)] →
    n ≤ avail s → ∃ i, decode f (streamValue n s) [] = .ok i ∧ exec m s = exec i (afterRead n s)) ∧
  (∀ (s : State) (code rest : List Bool) (v : Nat), streamBits s = code ++ rest → code.length ≤ 15 →
    (followCode s.tCL 0 code = some v → v ≤ 15 → ∃ i, decode .clsym v [] = .ok i ∧
      exec .tagDyLsym s = exec i (afterRead code.length s)) ∧
    (followCode s.tLL 0 code = some v → v ≤ 256 ∨ v = 286 ∨ v = 287 → ∃ i, decode .llsym v [] = .ok i ∧
      exec .tagSym s = exec i (afterRead code.length s)) ∧
    (followCode s.tD 0 code = some v → s.dEmpty = false → v = 30 ∨ v = 31 → ∃ i, decode .dsym v [] = .ok i ∧
      exec .tagDsym s = exec i (afterRead code.length s))) ∧
  (∀ (s : State) (e : Nat), (s.cur = 16#9 ∧ s.j ≠ 0#9 ∧ e = 2) ∨ (s.cur = 17#9 ∧ e = 3) ∨ (s.cur = 18#9 ∧ e = 7) →
    e ≤ avail s → ∃ i, decode .clsym (s.cur.toNat + 32 * streamValue e s) [] = .ok i ∧
      exec .tagDyLextra s = exec i (afterRead e s)) ∧
  (∀ (s : State) (b e : Nat), romLen s.cur.toNat = some (b, e) → e ≤ avail s → ∃ i,
    decode .llsym (s.cur.toNat + 512 * streamValue e s) [] = .ok i ∧ exec .tagLenExtra s = exec i (afterRead e s)) ∧
  (∀ (s : State) (b e : Nat), romDist s.dsym.toNat = some (b, e) → e ≤ avail s → ∃ i,
    decode .dsym (s.dsym.toNat + 32 * streamValue e s) [] = .ok i ∧ exec .tagDistExtra s = exec i (afterRead e s))

/-- CRC_UPDATE (R381, R380): the table lookup equals folding the byte bit by bit through the reflected polynomial 0xEDB88320. -/
def Obligations.CrcFoldsBits : Prop :=
  ∀ (c : BitVec 32) (b : Byte), crcUpdate c b =
    (fun x : BitVec 32 => if x.getLsbD 0 = true then (x >>> 1) ^^^ 0xEDB88320#32 else x >>> 1)^[8] (c ^^^ b.setWidth 32)

/-- An overlapping copy (R348, R347): `n` COPY steps that do not fill the window produce `n` bytes, byte j being the byte DIST
before it, one of this copy's own bytes when j ≥ DIST; no other byte of WIN changes. -/
def Obligations.CopyRepeatsDistance : Prop :=
  ∀ (n : Nat) (s : State), s.wpos.toNat + n < 32768 → 1 ≤ s.dist.toNat → s.dist.toNat ≤ 32768 →
    (∀ j, j < n → j < s.dist.toNat →
      (Memory.read s.win ((s.wpos.toNat + j + 32768 - s.dist.toNat) % 32768)).isSome) →
    ∃ t, ExecTimes .tagCopy n s t ∧ t.wpos.toNat = s.wpos.toNat + n ∧
      (∀ a, a < s.wpos.toNat ∨ s.wpos.toNat + n ≤ a → Memory.read t.win a = Memory.read s.win a) ∧
      (∀ j, j < n → Memory.read t.win (s.wpos.toNat + j) =
        if j < s.dist.toNat then Memory.read s.win ((s.wpos.toNat + j + 32768 - s.dist.toNat) % 32768)
        else Memory.read t.win (s.wpos.toNat + j - s.dist.toNat))

/-! The whole machine. -/

/-- Who writes WIN (R82): only a micro-step of ST_COPY, SYM or COPY, and only at WPOS. -/
def Obligations.WindowWrites : Prop :=
  ∀ (s t : State) (a : Nat), step s = .next t → Memory.read t.win a ≠ Memory.read s.win a →
    s.stepping = true ∧ (s.tag = Tag.stCopy ∨ s.tag = Tag.sym ∨ s.tag = Tag.copy) ∧ a = s.wpos.toNat

/-- Who writes the tables and the length arrays (R40, R41, R83): only the micro-operations named for each; no host command. -/
def Obligations.TableWrites : Prop :=
  ∀ s t : State, step s = .next t →
    (t.tLL ≠ s.tLL ∨ t.tD ≠ s.tD → s.stepping = true ∧ (s.tag = Tag.fxBuild ∨ s.tag = Tag.dyBuild)) ∧
    (t.tCL ≠ s.tCL → s.stepping = true ∧ s.tag = Tag.dyClbuild) ∧
    (t.clens ≠ s.clens → s.stepping = true ∧ (s.tag = Tag.dyHclen ∨ s.tag = Tag.dyCll)) ∧
    (t.lens ≠ s.lens → s.stepping = true ∧ (s.tag = Tag.dyLsym ∨ s.tag = Tag.dyLextra))

/-- What the host can write (R44, R8): the configuration only through a command word of OPEN, the span only through one of
OPEN or SUPPLY; so the configuration holds for the whole stream. -/
def Obligations.HostWrites : Prop :=
  ∀ s t : State, step s = .next t →
    (t.parseHeader ≠ s.parseHeader ∨ t.nlenChecked ≠ s.nlenChecked ∨ t.rejectOversize ≠ s.rejectOversize ∨
        t.vendor ≠ s.vendor →
      s.stepping = false ∧ ∃ c cs, s.port = c :: cs ∧ c.word.extractLsb' 0 3 = 0#3) ∧
    (t.span ≠ s.span →
      s.stepping = false ∧ ∃ c cs, s.port = c :: cs ∧
        (c.word.extractLsb' 0 3 = 0#3 ∨ c.word.extractLsb' 0 3 = 2#3) ∧ t.span = c.span ∧ t.ipos = 0)

/-- What a micro-step does to its input (R33, R81, R92, R208): it consumes a prefix of the stream bits, each pulled byte counted
once, the span kept; a micro-step that ends its STEP with NeedMoreInput has changed nothing but by its pulls. -/
def Obligations.StreamConsumed : Prop :=
  ∀ s t : State, step s = .next t → s.stepping = true →
    (∃ k m : Nat, streamBits t = (streamBits s).drop k ∧ t.span = s.span ∧ t.ipos = s.ipos + m ∧
      t.inTotal = s.inTotal + BitVec.ofNat 64 m) ∧
    (tagTerminal s.tag = false → t.stepping = false → t.status = 2#3 →
      ∃ n, n ≤ 16 ∧ avail s < n ∧ t = endStep 2#3 (pull n s))

/-! Encodings. -/

/-- No bit of an encoding is dropped (R139): decoding the encoding of a well-formed instruction gives it back, every operand at
every value. Extra bits stand above the symbol in a value: the model's numbering (log entry 10). -/
def Obligations.DecodeOfEncode : Prop :=
  ∀ i : Instr, WellFormed i = true → decode (formatOf i) (encode i) (spanOf i) = .ok i

/-- Every value the decoder accepts is the encoding of the well-formed instruction it gives, in the same format (R139;
extra bits above the symbol: the model's numbering, log entry 10). -/
def Obligations.EncodeOfDecode : Prop :=
  ∀ (f : Format) (w : Nat) (span : List Byte) (i : Instr), decode f w span = .ok i →
    WellFormed i = true ∧ formatOf i = f ∧ encode i = w

/-- A few values decode to what they stand for: the fields, symbols, command word and TAG from the encoding tables (R122, R123,
R124, R126 to R130, R135, R32). In 18 + 32·86, 284 + 512·31 and 29 + 32·8191 the extra bits stand above the symbol, which is the
model's numbering (log entry 10). -/
def Obligations.DecodedWords : Prop :=
  decode .zhdr16 0x789C [] = .ok (.zlibHdr 0x789C#16) ∧
  decode .bhdr3 0b101 [] = .ok (.blkDynamic true) ∧
  decode .storedLen 0x0003 [] = .ok (.len16 3#16) ∧
  decode .dynHclen 14 [] = .ok (.hclen4 14#4) ∧
  decode .clsym (18 + 32 * 86) [] = .ok (.zero18 86#7) ∧
  decode .llsym 0x61 [] = .ok (.lit 0x61#8) ∧
  decode .llsym (284 + 512 * 31) [] = .ok (.len284 31#5) ∧
  decode .dsym (29 + 32 * 8191) [] = .ok (.dist29 8191#13) ∧
  decode .cmd32 0x00020005 [] = .ok (.cmdReadOut 2#16) ∧
  decode .tag5 15 [] = .ok .tagSym

/-- MATCH len, dist (R138): its two tokens leave MLEN = len and, when dist ≤ HIST, begin the copy of MLEN bytes from DIST =
dist (R343 to R346); a length of 258 uses symbol 285. What a token row leaves is the model's choice of the state it acts on (log
entry 9). -/
def Obligations.MatchExpands : Prop :=
  ∀ len dist : Nat, 3 ≤ len → len ≤ 258 → 1 ≤ dist → dist ≤ 32768 →
    ∃ (i d : Instr) (c : BitVec 9) (e : BitVec 5), matchTokens len dist = some (i, d) ∧
      (len = 258 → i = .len285) ∧
      (∀ s : State, exec i s = .next (afterContinue { s with cur := c, mlen := BitVec.ofNat 9 len, tag := Tag.dsym })) ∧
      (∀ s : State, dist ≤ s.hist.toNat → exec d s = .next (afterContinue { s with
        dsym := e, dist := BitVec.ofNat 16 dist, rem := BitVec.ofNat 16 s.mlen.toNat, tag := Tag.copy }))

/-! The invariant. -/

/-- The machine at power-on, its registers' values being log entry 3's, meets the invariant (R600, R47). -/
def Obligations.ResetInv : Prop := Inv State.reset

/-- Every step keeps the invariant, from every state that meets it (R47 but for the byte count of its (c), R237(a), R349,
R602). -/
def Obligations.StepKeepsInv : Prop := ∀ s t : State, Inv s → step s = .next t → Inv t

/-- No step stops from a state that meets the invariant (R46, R237, R349, R602): no rule reads an element that nothing has
written, and no instruction is refused by the model. -/
def Obligations.StepNeverStops : Prop := ∀ s : State, Inv s → ∃ t, step s = .next t

/-- Every STEP ends (R440): a STEP in progress is over within 3·(NBITS + 8·(SLEN − IPOS) + 32768) + 3 micro-steps. -/
def Obligations.StepTerminates : Prop :=
  ∀ s : State, Inv s → s.stepping = true →
    ∃ n t, n ≤ 3 * (s.acc.length + 8 * (s.span.length - s.ipos) + 32768) + 3 ∧ Reaches n s t ∧ t.stepping = false
end

