-- ==== Sys2Proof/Laws/Memory.lean ====
section
/-! SUPPORT. What the memory operations do: a read after a write of a run, and the canonical form every write keeps. -/

namespace Sys2Proof.Machine

variable {α : Type}

theorem read_append (m1 m2 : Memory α) (x : Nat) :
    Memory.read (m1 ++ m2) x = (Memory.read m1 x).or (Memory.read m2 x) := by
  induction m1 with
  | nil => rfl
  | cons c m ih =>
    obtain ⟨b, v⟩ := c
    simp only [List.cons_append, Memory.read]
    split
    · rfl
    · exact ih

theorem read_filter (p : Nat → Bool) (m : Memory α) (x : Nat) :
    Memory.read (m.filter (fun c => p c.1)) x = if p x then Memory.read m x else none := by
  induction m with
  | nil => simp [Memory.read]
  | cons c m ih =>
    obtain ⟨b, v⟩ := c
    by_cases hb : p b
    · simp only [List.filter_cons, hb, if_true, Memory.read]
      by_cases hx : b = x
      · subst hx; simp [hb]
      · simp [hx, ih]
    · simp only [List.filter_cons, hb, Memory.read]
      by_cases hx : b = x
      · subst hx; simp [hb, ih]
      · simp [hx, ih]

theorem read_cells (a : Nat) (vs : List α) (x : Nat) :
    Memory.read (Memory.cells a vs) x = if a ≤ x then vs[x - a]? else none := by
  induction vs generalizing a with
  | nil => simp [Memory.cells, Memory.read]
  | cons v vs ih =>
    simp only [Memory.cells, Memory.read, ih]
    by_cases h : a = x
    · subst h; simp
    · by_cases h2 : a ≤ x
      · have e : x - a = (x - (a + 1)) + 1 := by omega
        have h3 : a + 1 ≤ x := by omega
        simp [h, h2, h3, e]
      · have h3 : ¬ a + 1 ≤ x := by omega
        simp [h, h2, h3]

/-- A read after a write of a run: the run inside it, the old element outside. -/
theorem read_writeBlock (m : Memory α) (a : Nat) (vs : List α) (x : Nat) :
    Memory.read (Memory.writeBlock m a vs) x =
      if a ≤ x ∧ x < a + vs.length then vs[x - a]? else Memory.read m x := by
  have e1 := read_filter (fun n => decide (n < a)) m x
  have e2 := read_filter (fun n => decide (a + vs.length ≤ n)) m x
  rw [Memory.writeBlock, read_append, read_append, e1, e2, read_cells]
  by_cases h1 : x < a
  · have h2 : ¬ a ≤ x := by omega
    have h3 : ¬ a + vs.length ≤ x := by omega
    simp [h1, h2, h3]
  · have h2 : a ≤ x := by omega
    by_cases h3 : x < a + vs.length
    · have h4 : ¬ a + vs.length ≤ x := by omega
      simp [h1, h2, h3, h4]
    · have h4 : a + vs.length ≤ x := by omega
      have h5 : vs.length ≤ x - a := by omega
      simp [h1, h2, h3, h4, h5]

/-- A read at the address written gives the value written. -/
@[simp] theorem read_write_same (m : Memory α) (a : Nat) (v : α) : Memory.read (Memory.write m a v) a = some v := by
  simp [Memory.write, read_writeBlock]

/-- A write leaves every other address alone. -/
theorem read_write_other (m : Memory α) (a x : Nat) (v : α) (h : x ≠ a) :
    Memory.read (Memory.write m a v) x = Memory.read m x := by
  rw [Memory.write, read_writeBlock, if_neg]
  simp only [List.length_singleton]
  omega

theorem mem_cells_bounds (a : Nat) (vs : List α) : ∀ c ∈ Memory.cells a vs, a ≤ c.1 ∧ c.1 < a + vs.length := by
  induction vs generalizing a with
  | nil => simp [Memory.cells]
  | cons v vs ih =>
    intro c hc
    simp only [Memory.cells, List.mem_cons] at hc
    rcases hc with rfl | hc
    · simp
    · have := ih (a + 1) c hc
      simp only [List.length_cons]
      omega

theorem wf_cells (a : Nat) (vs : List α) : Memory.wf (Memory.cells a vs) := by
  induction vs generalizing a with
  | nil => simp [Memory.cells]
  | cons v vs ih =>
    refine List.pairwise_cons.2 ⟨fun c hc => ?_, ih (a + 1)⟩
    have := mem_cells_bounds (a + 1) vs c hc
    simpa using this.1

/-- Every write keeps the canonical form. -/
theorem wf_writeBlock (m : Memory α) (a : Nat) (vs : List α) (h : Memory.wf m) : Memory.wf (Memory.writeBlock m a vs) := by
  refine List.pairwise_append.2 ⟨List.pairwise_append.2 ⟨h.filter _, wf_cells a vs, fun c hc d hd => ?_⟩, h.filter _,
    fun c hc d hd => ?_⟩
  · have h1 := (List.mem_filter.1 hc).2
    have h2 := (mem_cells_bounds a vs d hd).1
    simp only [decide_eq_true_eq] at h1
    omega
  · have h2 := (List.mem_filter.1 hd).2
    simp only [decide_eq_true_eq] at h2
    rcases List.mem_append.1 hc with hc | hc
    · have h1 := (List.mem_filter.1 hc).2
      simp only [decide_eq_true_eq] at h1
      omega
    · have h1 := (mem_cells_bounds a vs c hc).2
      omega

theorem wf_write (m : Memory α) (a : Nat) (v : α) (h : Memory.wf m) : Memory.wf (Memory.write m a v) :=
  wf_writeBlock m a [v] h

/-- A write lists no address but those of its run and those listed before. -/
theorem mem_writeBlock (m : Memory α) (a : Nat) (vs : List α) :
    ∀ c ∈ Memory.writeBlock m a vs, c ∈ m ∨ (a ≤ c.1 ∧ c.1 < a + vs.length) := by
  intro c hc
  simp only [Memory.writeBlock, List.mem_append] at hc
  rcases hc with (hc | hc) | hc
  · exact .inl (List.mem_filter.1 hc).1
  · exact .inr (mem_cells_bounds a vs c hc)
  · exact .inl (List.mem_filter.1 hc).1

/-- The values of a run are read one by one. -/
theorem readBlock_eq_some (m : Memory α) (a n : Nat) :
    (∀ i, i < n → (Memory.read m (a + i)).isSome) → ∃ vs, Memory.readBlock m a n = some vs ∧ vs.length = n := by
  induction n generalizing a with
  | zero => exact fun _ => ⟨[], rfl, rfl⟩
  | succ n ih =>
    intro h
    obtain ⟨v, hv⟩ := Option.isSome_iff_exists.1 (h 0 (by omega))
    obtain ⟨vs, hvs, hl⟩ := ih (a + 1) (fun i hi => by
      have := h (i + 1) (by omega)
      rwa [show a + 1 + i = a + (i + 1) by omega])
    refine ⟨v :: vs, ?_, by simp [hl]⟩
    simp only [Nat.add_zero] at hv
    simp [Memory.readBlock, hv, hvs]

end Sys2Proof.Machine
end

