-- ==== Sys2Proof/Laws/Huffman.lean ====
section
/-! SUPPORT. What BUILD does: the sizes of its levels and the closed table it writes (41_huffman.md R236, R237). -/

namespace Sys2Proof.Machine

/-- The used symbols whose length is one of the `n` lengths from `i` on. -/
def usedFrom (ls : List Nat) : Nat → Nat → Nat
  | 0, _ => 0
  | n + 1, i => lenCount ls i + usedFrom ls n (i + 1)

theorem usedFrom_nil (n i : Nat) : usedFrom [] n i = 0 := by
  induction n generalizing i with
  | zero => rfl
  | succ n ih => simp [usedFrom, lenCount, ih]

theorem usedFrom_cons (l : Nat) (ls : List Nat) (n i : Nat) :
    usedFrom (l :: ls) n i = usedFrom ls n i + if i ≤ l ∧ l < i + n then 1 else 0 := by
  induction n generalizing i with
  | zero => simp [usedFrom]
  | succ n ih =>
    rw [usedFrom, usedFrom, ih, lenCount, lenCount, List.count_cons]
    by_cases h : l = i
    · subst h
      have h1 : ¬ (l + 1 ≤ l ∧ l < l + 1 + n) := by omega
      have h2 : l ≤ l ∧ l < l + (n + 1) := by omega
      simp only [beq_self_eq_true, if_true, if_neg h1, if_pos h2]
      omega
    · have hb : (l == i) = false := by simpa using h
      by_cases h1 : i + 1 ≤ l ∧ l < i + 1 + n
      · have h2 : i ≤ l ∧ l < i + (n + 1) := by omega
        simp only [hb, if_pos h1, if_pos h2, Bool.false_eq_true, if_false]
        omega
      · have h2 : ¬ (i ≤ l ∧ l < i + (n + 1)) := by omega
        simp only [hb, if_neg h1, if_neg h2, Bool.false_eq_true, if_false]
        omega

/-- total = Σ cnt[i] (R231). -/
theorem usedCount_eq (ls : List Nat) : usedCount ls = usedFrom ls 15 1 := by
  induction ls with
  | nil => rw [usedFrom_nil]; rfl
  | cons l ls ih =>
    rw [usedFrom_cons, ← ih, usedCount, List.countP_cons]
    by_cases h : 1 ≤ l ∧ l ≤ 15
    · have h2 : 1 ≤ l ∧ l < 1 + 15 := by omega
      simp [h, h2, usedCount]
    · have h2 : ¬ (1 ≤ l ∧ l < 1 + 15) := by omega
      simp [h, h2, usedCount]

theorem usedCount_le (ls : List Nat) : usedCount ls ≤ ls.length := List.countP_le_length

theorem symbolsFrom_length (s i : Nat) (ls : List Nat) : (symbolsFrom s i ls).length = lenCount ls i := by
  induction ls generalizing s with
  | nil => rfl
  | cons l ls ih =>
    rw [symbolsFrom, lenCount, List.count_cons]
    by_cases h : l = i
    · simp [h, ih, lenCount]
    · simp [h, ih, lenCount]

theorem symbolsFrom_mem (s i : Nat) (ls : List Nat) : ∀ x ∈ symbolsFrom s i ls, s ≤ x ∧ x < s + ls.length := by
  induction ls generalizing s with
  | nil => simp [symbolsFrom]
  | cons l ls ih =>
    intro x hx
    rw [symbolsFrom] at hx
    split at hx
    · rcases List.mem_cons.1 hx with rfl | hx
      · simp
      · have := ih (s + 1) x hx
        simp only [List.length_cons]; omega
    · have := ih (s + 1) x hx
      simp only [List.length_cons]; omega

theorem leavesAt_length (ls : List Nat) (i : Nat) : (leavesAt ls i).length = lenCount ls i := by
  simp [leavesAt, symbolsFrom_length]

theorem internals_length (n next : Nat) : (internals n next).length = n := by
  induction n generalizing next with
  | zero => rfl
  | succ n ih => simp [internals, ih]

theorem internals_get (n next k : Nat) (h : k < n) :
    (internals n next)[k]? = some (~~~(BitVec.ofNat 16 (next + 2 * k))) := by
  induction n generalizing next k with
  | zero => omega
  | succ n ih =>
    cases k with
    | zero => simp [internals]
    | succ k =>
      simp only [internals, List.getElem?_cons_succ]
      rw [ih (next + 2) k (by omega)]
      congr 3
      omega

/-- Level i fits its bit budget at every length. -/
theorem not_oversubscribed (ls : List Nat) (h : oversubscribed ls = false) (i : Nat) (h1 : 1 ≤ i) (h2 : i ≤ 15) :
    firstCode ls i + lenCount ls i ≤ 2 ^ i := by
  have := List.any_eq_false.1 h (i - 1) (by simp; omega)
  simp only [decide_eq_true_eq, Nat.not_lt] at this
  rwa [show i - 1 + 1 = i by omega] at this

theorem firstCode_succ (ls : List Nat) (i : Nat) (h : 1 ≤ i) :
    firstCode ls (i + 1) = (firstCode ls i + lenCount ls i) * 2 := by
  obtain ⟨k, rfl⟩ : ∃ k, i = k + 1 := ⟨i - 1, by omega⟩
  rfl

theorem levelEntries_length (ls : List Nat) (i idx : Nat) (h : firstCode ls i + lenCount ls i ≤ 2 ^ i) :
    (levelEntries ls i idx).length = 2 ^ i - firstCode ls i := by
  rw [levelEntries, List.length_append, leavesAt_length, internals_length]
  omega

/-- The levels from i on hold twice their symbols, less the nodes of level i (R237(a)). -/
theorem levelsFrom_length (ls : List Nat) (ho : oversubscribed ls = false) (hc : incomplete ls = false) (n : Nat) :
    ∀ i idx, 1 ≤ i → i + n = 15 →
      (levelsFrom ls (n + 1) i idx).length + (2 ^ i - firstCode ls i) = 2 * usedFrom ls (n + 1) i := by
  induction n with
  | zero =>
    intro i idx h1 h2
    obtain rfl : i = 15 := by omega
    have hn := not_oversubscribed ls ho 15 (by omega) (by omega)
    have hf : firstCode ls 15 + lenCount ls 15 = 32768 := by simpa [incomplete] using hc
    simp only [levelsFrom, List.append_nil, levelEntries_length ls 15 idx hn, usedFrom]
    omega
  | succ n ih =>
    intro i idx h1 h2
    have hn := not_oversubscribed ls ho i h1 (by omega)
    have hr := ih (i + 1) (idx + (2 ^ i - firstCode ls i)) (by omega) (by omega)
    have hm := not_oversubscribed ls ho (i + 1) (by omega) (by omega)
    rw [levelsFrom, List.length_append, levelEntries_length ls i idx hn]
    rw [usedFrom]
    rw [firstCode_succ ls i h1] at hr hm
    rw [pow_succ] at hr hm
    omega

theorem tableEntries_length (ls : List Nat) (ho : oversubscribed ls = false) (hc : incomplete ls = false) :
    (tableEntries ls).length + 2 = 2 * usedCount ls := by
  have h := levelsFrom_length ls ho hc 14 1 0 (le_refl 1) (by omega)
  rw [usedCount_eq]
  simpa [tableEntries, firstCode] using h

/-- Every entry of the levels from i on is a leaf below the alphabet's size or a pointer to a pair of a later level. -/
theorem levelsFrom_entries (ls : List Nat) (ho : oversubscribed ls = false) (hc : incomplete ls = false)
    (hs : ls.length ≤ 32768) (n : Nat) : ∀ i idx, 1 ≤ i → i + n = 15 →
      idx + (levelsFrom ls (n + 1) i idx).length ≤ 32768 →
      ∀ (k : Nat) (e : Entry), (levelsFrom ls (n + 1) i idx)[k]? = some e →
        (e.msb = false → e.toNat < ls.length) ∧
        (e.msb = true → (~~~e).toNat + 1 < idx + (levelsFrom ls (n + 1) i idx).length) := by
  have leaf : ∀ (i k : Nat) (e : Entry), (leavesAt ls i)[k]? = some e → e.msb = false ∧ e.toNat < ls.length := by
    intro i k e h
    have hm := List.mem_of_getElem? h
    simp only [leavesAt, List.mem_map] at hm
    obtain ⟨x, hx, rfl⟩ := hm
    have := symbolsFrom_mem 0 i ls x hx
    have e : (BitVec.ofNat 16 x).toNat = x := by simp only [BitVec.toNat_ofNat]; omega
    refine ⟨?_, by omega⟩
    rw [BitVec.msb_eq_false_iff_two_mul_lt, e]
    omega
  have ptr : ∀ p, p < 32768 → (~~~(BitVec.ofNat 16 p)).msb = true ∧ (~~~(~~~(BitVec.ofNat 16 p))).toNat = p := by
    intro p hp
    have e : (BitVec.ofNat 16 p).toNat = p := by simp only [BitVec.toNat_ofNat]; omega
    refine ⟨?_, by simpa using e⟩
    rw [BitVec.msb_eq_true_iff_two_mul_ge, BitVec.toNat_not, e]
    omega
  induction n with
  | zero =>
    intro i idx h1 h2 hl k e he
    obtain rfl : i = 15 := by omega
    have hf : firstCode ls 15 + lenCount ls 15 = 32768 := by simpa [incomplete] using hc
    rw [levelsFrom, levelsFrom, List.append_nil, levelEntries] at he
    rw [show 2 ^ 15 - (firstCode ls 15 + lenCount ls 15) = 0 by omega, internals, List.append_nil] at he
    obtain ⟨hm, hb⟩ := leaf 15 k e he
    exact ⟨fun _ => hb, fun h => by simp [hm] at h⟩
  | succ n ih =>
    intro i idx h1 h2 hl k e he
    have hn := not_oversubscribed ls ho i h1 (by omega)
    have hm := not_oversubscribed ls ho (i + 1) (by omega) (by omega)
    have hlen := levelEntries_length ls i idx hn
    have htail := levelsFrom_length ls ho hc n (i + 1) (idx + (2 ^ i - firstCode ls i)) (by omega) (by omega)
    have hnext : 2 * (2 ^ i - (firstCode ls i + lenCount ls i)) ≤
        (levelsFrom ls (n + 1) (i + 1) (idx + (2 ^ i - firstCode ls i))).length := by
      have hge : lenCount ls (i + 1) ≤ usedFrom ls (n + 1) (i + 1) := by rw [usedFrom]; omega
      rw [levelsFrom, List.length_append, levelEntries_length ls (i + 1) _ hm, firstCode_succ ls i h1, pow_succ]
      omega
    rw [levelsFrom] at he hl ⊢
    rw [List.length_append, hlen] at hl ⊢
    by_cases hk : k < (levelEntries ls i idx).length
    · rw [List.getElem?_append_left hk, levelEntries] at he
      by_cases hk2 : k < (leavesAt ls i).length
      · rw [List.getElem?_append_left hk2] at he
        obtain ⟨hm, hb⟩ := leaf i k e he
        exact ⟨fun _ => hb, fun h => by simp [hm] at h⟩
      · rw [List.getElem?_append_right (by omega), internals_get _ _ _ (by rw [leavesAt_length] at *; omega)] at he
        simp only [Option.some.injEq] at he
        subst he
        rw [leavesAt_length] at *
        obtain ⟨hp1, hp2⟩ := ptr (idx + (2 ^ i - firstCode ls i) + 2 * (k - lenCount ls i)) (by omega)
        exact ⟨fun h => by simp [hp1] at h, fun _ => by rw [hp2]; omega⟩
    · rw [List.getElem?_append_right (by omega), hlen] at he
      have := ih (i + 1) (idx + (2 ^ i - firstCode ls i)) (by omega) (by omega) (by omega) _ e he
      refine ⟨this.1, fun h => ?_⟩
      have := this.2 h
      omega

theorem read_writeBlock_zero {α : Type} (t : Memory α) (es : List α) (i : Nat) (h : i < es.length) :
    Memory.read (Memory.writeBlock t 0 es) i = es[i]? := by
  rw [read_writeBlock, if_pos ⟨by omega, by omega⟩, Nat.sub_zero]

/-- A build that writes a table writes a closed one, whatever the table held before (R233, R237). -/
theorem build_closed (ls : List Nat) (allowEmpty : Bool) (es : List Entry) (t : Memory Entry)
    (hl : ls.length ≤ 288) (h : build ls allowEmpty = .table es) :
    TableClosed (Memory.writeBlock t 0 es) ls.length := by
  rw [build] at h
  split at h
  · split at h <;> cases h
  · rename_i h0
    split at h
    · rename_i h1
      simp only [Built.table.injEq] at h
      subst h
      have hlt : onlySymbol ls < ls.length := by
        rw [onlySymbol, List.findIdx_lt_length]
        by_contra hc
        push Not at hc
        rw [usedCount, List.countP_eq_zero.2 (fun x hx => by simpa using hc x hx)] at h0
        exact h0 rfl
      have e : (BitVec.ofNat 16 (onlySymbol ls)).toNat = onlySymbol ls := by
        simp only [BitVec.toNat_ofNat]; omega
      have hm : (BitVec.ofNat 16 (onlySymbol ls)).msb = false := by
        rw [BitVec.msb_eq_false_iff_two_mul_lt, e]; omega
      refine ⟨2, le_refl 2, fun i hi => ⟨BitVec.ofNat 16 (onlySymbol ls), ?_, fun _ => by omega, fun h => by
        simp [hm] at h⟩⟩
      rw [read_writeBlock_zero t _ i (by simpa using hi)]
      match i, hi with
      | 0, _ => rfl
      | 1, _ => rfl
    · split at h
      · cases h
      · rename_i ho
        split at h
        · cases h
        · rename_i hc
          simp only [Built.table.injEq] at h
          subst h
          rename_i h1
          have ho : oversubscribed ls = false := by simpa using ho
          have hc : incomplete ls = false := by simpa using hc
          have hlen := tableEntries_length ls ho hc
          have hle := usedCount_le ls
          refine ⟨(tableEntries ls).length, by omega, fun i hi => ?_⟩
          obtain ⟨e, he⟩ : ∃ e, (tableEntries ls)[i]? = some e := ⟨_, List.getElem?_eq_getElem hi⟩
          have := levelsFrom_entries ls ho hc (by omega) 14 1 0 (le_refl 1) (by omega)
            (by change 0 + (tableEntries ls).length ≤ 32768; omega) i e he
          refine ⟨e, by rw [read_writeBlock_zero t _ i hi, he], this.1, fun h => ?_⟩
          have h2 := this.2 h
          change _ < 0 + (tableEntries ls).length at h2
          omega

end Sys2Proof.Machine
end

