-- ==== Sys2Proof/Laws/State.lean ====
section
/-! SUPPORT. One lemma per field for each update that many rules share: the end of a STEP, the fatal entry, a `continue`, the
flush acknowledgement, PULL, DROP and a byte put. Each is true by unfolding the update once, so no later proof unfolds it. -/

namespace Sys2Proof.Machine

variable (s : State)

@[simp] theorem endStep_tag (st : BitVec 3) : (endStep st s).tag = s.tag := rfl
@[simp] theorem endStep_acc (st : BitVec 3) : (endStep st s).acc = s.acc := rfl
@[simp] theorem endStep_span (st : BitVec 3) : (endStep st s).span = s.span := rfl
@[simp] theorem endStep_ipos (st : BitVec 3) : (endStep st s).ipos = s.ipos := rfl
@[simp] theorem endStep_inTotal (st : BitVec 3) : (endStep st s).inTotal = s.inTotal := rfl
@[simp] theorem endStep_bfinal (st : BitVec 3) : (endStep st s).bfinal = s.bfinal := rfl
@[simp] theorem endStep_btype (st : BitVec 3) : (endStep st s).btype = s.btype := rfl
@[simp] theorem endStep_storedLen (st : BitVec 3) : (endStep st s).storedLen = s.storedLen := rfl
@[simp] theorem endStep_rem (st : BitVec 3) : (endStep st s).rem = s.rem := rfl
@[simp] theorem endStep_hlit (st : BitVec 3) : (endStep st s).hlit = s.hlit := rfl
@[simp] theorem endStep_hdist (st : BitVec 3) : (endStep st s).hdist = s.hdist := rfl
@[simp] theorem endStep_hclen (st : BitVec 3) : (endStep st s).hclen = s.hclen := rfl
@[simp] theorem endStep_k (st : BitVec 3) : (endStep st s).k = s.k := rfl
@[simp] theorem endStep_j (st : BitVec 3) : (endStep st s).j = s.j := rfl
@[simp] theorem endStep_lastLen (st : BitVec 3) : (endStep st s).lastLen = s.lastLen := rfl
@[simp] theorem endStep_cur (st : BitVec 3) : (endStep st s).cur = s.cur := rfl
@[simp] theorem endStep_mlen (st : BitVec 3) : (endStep st s).mlen = s.mlen := rfl
@[simp] theorem endStep_dsym (st : BitVec 3) : (endStep st s).dsym = s.dsym := rfl
@[simp] theorem endStep_dist (st : BitVec 3) : (endStep st s).dist = s.dist := rfl
@[simp] theorem endStep_wpos (st : BitVec 3) : (endStep st s).wpos = s.wpos := rfl
@[simp] theorem endStep_hist (st : BitVec 3) : (endStep st s).hist = s.hist := rfl
@[simp] theorem endStep_outLen (st : BitVec 3) : (endStep st s).outLen = s.outLen := rfl
@[simp] theorem endStep_flushPending (st : BitVec 3) : (endStep st s).flushPending = s.flushPending := rfl
@[simp] theorem endStep_dEmpty (st : BitVec 3) : (endStep st s).dEmpty = s.dEmpty := rfl
@[simp] theorem endStep_crc (st : BitVec 3) : (endStep st s).crc = s.crc := rfl
@[simp] theorem endStep_status (st : BitVec 3) : (endStep st s).status = st := rfl
@[simp] theorem endStep_errKind (st : BitVec 3) : (endStep st s).errKind = s.errKind := rfl
@[simp] theorem endStep_huffReason (st : BitVec 3) : (endStep st s).huffReason = s.huffReason := rfl
@[simp] theorem endStep_parseHeader (st : BitVec 3) : (endStep st s).parseHeader = s.parseHeader := rfl
@[simp] theorem endStep_nlenChecked (st : BitVec 3) : (endStep st s).nlenChecked = s.nlenChecked := rfl
@[simp] theorem endStep_rejectOversize (st : BitVec 3) : (endStep st s).rejectOversize = s.rejectOversize := rfl
@[simp] theorem endStep_vendor (st : BitVec 3) : (endStep st s).vendor = s.vendor := rfl
@[simp] theorem endStep_win (st : BitVec 3) : (endStep st s).win = s.win := rfl
@[simp] theorem endStep_tLL (st : BitVec 3) : (endStep st s).tLL = s.tLL := rfl
@[simp] theorem endStep_tD (st : BitVec 3) : (endStep st s).tD = s.tD := rfl
@[simp] theorem endStep_tCL (st : BitVec 3) : (endStep st s).tCL = s.tCL := rfl
@[simp] theorem endStep_clens (st : BitVec 3) : (endStep st s).clens = s.clens := rfl
@[simp] theorem endStep_lens (st : BitVec 3) : (endStep st s).lens = s.lens := rfl
@[simp] theorem endStep_stepping (st : BitVec 3) : (endStep st s).stepping = false := rfl
@[simp] theorem endStep_port (st : BitVec 3) : (endStep st s).port = s.port := rfl
@[simp] theorem endStep_response (st : BitVec 3) : (endStep st s).response = responseOf st s := rfl
@[simp] theorem endStep_draws (st : BitVec 3) : (endStep st s).draws = s.draws := rfl

@[simp] theorem fatal_tag (e : ErrKind) : (fatal e s).tag = Tag.failed := rfl
@[simp] theorem fatal_acc (e : ErrKind) : (fatal e s).acc = s.acc := rfl
@[simp] theorem fatal_span (e : ErrKind) : (fatal e s).span = s.span := rfl
@[simp] theorem fatal_ipos (e : ErrKind) : (fatal e s).ipos = s.ipos := rfl
@[simp] theorem fatal_inTotal (e : ErrKind) : (fatal e s).inTotal = s.inTotal := rfl
@[simp] theorem fatal_bfinal (e : ErrKind) : (fatal e s).bfinal = s.bfinal := rfl
@[simp] theorem fatal_btype (e : ErrKind) : (fatal e s).btype = s.btype := rfl
@[simp] theorem fatal_storedLen (e : ErrKind) : (fatal e s).storedLen = s.storedLen := rfl
@[simp] theorem fatal_rem (e : ErrKind) : (fatal e s).rem = s.rem := rfl
@[simp] theorem fatal_hlit (e : ErrKind) : (fatal e s).hlit = s.hlit := rfl
@[simp] theorem fatal_hdist (e : ErrKind) : (fatal e s).hdist = s.hdist := rfl
@[simp] theorem fatal_hclen (e : ErrKind) : (fatal e s).hclen = s.hclen := rfl
@[simp] theorem fatal_k (e : ErrKind) : (fatal e s).k = s.k := rfl
@[simp] theorem fatal_j (e : ErrKind) : (fatal e s).j = s.j := rfl
@[simp] theorem fatal_lastLen (e : ErrKind) : (fatal e s).lastLen = s.lastLen := rfl
@[simp] theorem fatal_cur (e : ErrKind) : (fatal e s).cur = s.cur := rfl
@[simp] theorem fatal_mlen (e : ErrKind) : (fatal e s).mlen = s.mlen := rfl
@[simp] theorem fatal_dsym (e : ErrKind) : (fatal e s).dsym = s.dsym := rfl
@[simp] theorem fatal_dist (e : ErrKind) : (fatal e s).dist = s.dist := rfl
@[simp] theorem fatal_wpos (e : ErrKind) : (fatal e s).wpos = s.wpos := rfl
@[simp] theorem fatal_hist (e : ErrKind) : (fatal e s).hist = s.hist := rfl
@[simp] theorem fatal_outLen (e : ErrKind) : (fatal e s).outLen = s.outLen := rfl
@[simp] theorem fatal_flushPending (e : ErrKind) : (fatal e s).flushPending = s.flushPending := rfl
@[simp] theorem fatal_dEmpty (e : ErrKind) : (fatal e s).dEmpty = s.dEmpty := rfl
@[simp] theorem fatal_crc (e : ErrKind) : (fatal e s).crc = s.crc := rfl
@[simp] theorem fatal_status (e : ErrKind) : (fatal e s).status = Status.error := rfl
@[simp] theorem fatal_errKind (e : ErrKind) : (fatal e s).errKind = errCode e := rfl
@[simp] theorem fatal_huffReason (e : ErrKind) : (fatal e s).huffReason = s.huffReason := rfl
@[simp] theorem fatal_parseHeader (e : ErrKind) : (fatal e s).parseHeader = s.parseHeader := rfl
@[simp] theorem fatal_nlenChecked (e : ErrKind) : (fatal e s).nlenChecked = s.nlenChecked := rfl
@[simp] theorem fatal_rejectOversize (e : ErrKind) : (fatal e s).rejectOversize = s.rejectOversize := rfl
@[simp] theorem fatal_vendor (e : ErrKind) : (fatal e s).vendor = s.vendor := rfl
@[simp] theorem fatal_win (e : ErrKind) : (fatal e s).win = s.win := rfl
@[simp] theorem fatal_tLL (e : ErrKind) : (fatal e s).tLL = s.tLL := rfl
@[simp] theorem fatal_tD (e : ErrKind) : (fatal e s).tD = s.tD := rfl
@[simp] theorem fatal_tCL (e : ErrKind) : (fatal e s).tCL = s.tCL := rfl
@[simp] theorem fatal_clens (e : ErrKind) : (fatal e s).clens = s.clens := rfl
@[simp] theorem fatal_lens (e : ErrKind) : (fatal e s).lens = s.lens := rfl
@[simp] theorem fatal_stepping (e : ErrKind) : (fatal e s).stepping = false := rfl
@[simp] theorem fatal_port (e : ErrKind) : (fatal e s).port = s.port := rfl
@[simp] theorem fatal_response (e : ErrKind) : (fatal e s).response = .word (responseWord Status.error (errCode e) s.huffReason s.outLen) := rfl
@[simp] theorem fatal_draws (e : ErrKind) : (fatal e s).draws = s.draws := rfl

@[simp] theorem afterContinue_tag : (afterContinue s).tag = s.tag := rfl
@[simp] theorem afterContinue_acc : (afterContinue s).acc = s.acc := rfl
@[simp] theorem afterContinue_span : (afterContinue s).span = s.span := rfl
@[simp] theorem afterContinue_ipos : (afterContinue s).ipos = s.ipos := rfl
@[simp] theorem afterContinue_inTotal : (afterContinue s).inTotal = s.inTotal := rfl
@[simp] theorem afterContinue_bfinal : (afterContinue s).bfinal = s.bfinal := rfl
@[simp] theorem afterContinue_btype : (afterContinue s).btype = s.btype := rfl
@[simp] theorem afterContinue_storedLen : (afterContinue s).storedLen = s.storedLen := rfl
@[simp] theorem afterContinue_rem : (afterContinue s).rem = s.rem := rfl
@[simp] theorem afterContinue_hlit : (afterContinue s).hlit = s.hlit := rfl
@[simp] theorem afterContinue_hdist : (afterContinue s).hdist = s.hdist := rfl
@[simp] theorem afterContinue_hclen : (afterContinue s).hclen = s.hclen := rfl
@[simp] theorem afterContinue_k : (afterContinue s).k = s.k := rfl
@[simp] theorem afterContinue_j : (afterContinue s).j = s.j := rfl
@[simp] theorem afterContinue_lastLen : (afterContinue s).lastLen = s.lastLen := rfl
@[simp] theorem afterContinue_cur : (afterContinue s).cur = s.cur := rfl
@[simp] theorem afterContinue_mlen : (afterContinue s).mlen = s.mlen := rfl
@[simp] theorem afterContinue_dsym : (afterContinue s).dsym = s.dsym := rfl
@[simp] theorem afterContinue_dist : (afterContinue s).dist = s.dist := rfl
@[simp] theorem afterContinue_wpos : (afterContinue s).wpos = s.wpos := rfl
@[simp] theorem afterContinue_hist : (afterContinue s).hist = s.hist := rfl
@[simp] theorem afterContinue_outLen : (afterContinue s).outLen = s.outLen := rfl
@[simp] theorem afterContinue_flushPending : (afterContinue s).flushPending = s.flushPending := rfl
@[simp] theorem afterContinue_dEmpty : (afterContinue s).dEmpty = s.dEmpty := rfl
@[simp] theorem afterContinue_crc : (afterContinue s).crc = s.crc := rfl
@[simp] theorem afterContinue_status : (afterContinue s).status = bif Config.yieldDraw s.draws then Status.progress else s.status := rfl
@[simp] theorem afterContinue_errKind : (afterContinue s).errKind = s.errKind := rfl
@[simp] theorem afterContinue_huffReason : (afterContinue s).huffReason = s.huffReason := rfl
@[simp] theorem afterContinue_parseHeader : (afterContinue s).parseHeader = s.parseHeader := rfl
@[simp] theorem afterContinue_nlenChecked : (afterContinue s).nlenChecked = s.nlenChecked := rfl
@[simp] theorem afterContinue_rejectOversize : (afterContinue s).rejectOversize = s.rejectOversize := rfl
@[simp] theorem afterContinue_vendor : (afterContinue s).vendor = s.vendor := rfl
@[simp] theorem afterContinue_win : (afterContinue s).win = s.win := rfl
@[simp] theorem afterContinue_tLL : (afterContinue s).tLL = s.tLL := rfl
@[simp] theorem afterContinue_tD : (afterContinue s).tD = s.tD := rfl
@[simp] theorem afterContinue_tCL : (afterContinue s).tCL = s.tCL := rfl
@[simp] theorem afterContinue_clens : (afterContinue s).clens = s.clens := rfl
@[simp] theorem afterContinue_lens : (afterContinue s).lens = s.lens := rfl
@[simp] theorem afterContinue_stepping : (afterContinue s).stepping = (s.stepping && !Config.yieldDraw s.draws) := rfl
@[simp] theorem afterContinue_port : (afterContinue s).port = s.port := rfl
@[simp] theorem afterContinue_response : (afterContinue s).response = bif Config.yieldDraw s.draws then responseOf Status.progress s else s.response := rfl
@[simp] theorem afterContinue_draws : (afterContinue s).draws = s.draws + 1 := rfl

@[simp] theorem drop_tag (n : Nat) : (drop n s).tag = s.tag := rfl
@[simp] theorem drop_acc (n : Nat) : (drop n s).acc = s.acc.drop n := rfl
@[simp] theorem drop_span (n : Nat) : (drop n s).span = s.span := rfl
@[simp] theorem drop_ipos (n : Nat) : (drop n s).ipos = s.ipos := rfl
@[simp] theorem drop_inTotal (n : Nat) : (drop n s).inTotal = s.inTotal := rfl
@[simp] theorem drop_bfinal (n : Nat) : (drop n s).bfinal = s.bfinal := rfl
@[simp] theorem drop_btype (n : Nat) : (drop n s).btype = s.btype := rfl
@[simp] theorem drop_storedLen (n : Nat) : (drop n s).storedLen = s.storedLen := rfl
@[simp] theorem drop_rem (n : Nat) : (drop n s).rem = s.rem := rfl
@[simp] theorem drop_hlit (n : Nat) : (drop n s).hlit = s.hlit := rfl
@[simp] theorem drop_hdist (n : Nat) : (drop n s).hdist = s.hdist := rfl
@[simp] theorem drop_hclen (n : Nat) : (drop n s).hclen = s.hclen := rfl
@[simp] theorem drop_k (n : Nat) : (drop n s).k = s.k := rfl
@[simp] theorem drop_j (n : Nat) : (drop n s).j = s.j := rfl
@[simp] theorem drop_lastLen (n : Nat) : (drop n s).lastLen = s.lastLen := rfl
@[simp] theorem drop_cur (n : Nat) : (drop n s).cur = s.cur := rfl
@[simp] theorem drop_mlen (n : Nat) : (drop n s).mlen = s.mlen := rfl
@[simp] theorem drop_dsym (n : Nat) : (drop n s).dsym = s.dsym := rfl
@[simp] theorem drop_dist (n : Nat) : (drop n s).dist = s.dist := rfl
@[simp] theorem drop_wpos (n : Nat) : (drop n s).wpos = s.wpos := rfl
@[simp] theorem drop_hist (n : Nat) : (drop n s).hist = s.hist := rfl
@[simp] theorem drop_outLen (n : Nat) : (drop n s).outLen = s.outLen := rfl
@[simp] theorem drop_flushPending (n : Nat) : (drop n s).flushPending = s.flushPending := rfl
@[simp] theorem drop_dEmpty (n : Nat) : (drop n s).dEmpty = s.dEmpty := rfl
@[simp] theorem drop_crc (n : Nat) : (drop n s).crc = s.crc := rfl
@[simp] theorem drop_status (n : Nat) : (drop n s).status = s.status := rfl
@[simp] theorem drop_errKind (n : Nat) : (drop n s).errKind = s.errKind := rfl
@[simp] theorem drop_huffReason (n : Nat) : (drop n s).huffReason = s.huffReason := rfl
@[simp] theorem drop_parseHeader (n : Nat) : (drop n s).parseHeader = s.parseHeader := rfl
@[simp] theorem drop_nlenChecked (n : Nat) : (drop n s).nlenChecked = s.nlenChecked := rfl
@[simp] theorem drop_rejectOversize (n : Nat) : (drop n s).rejectOversize = s.rejectOversize := rfl
@[simp] theorem drop_vendor (n : Nat) : (drop n s).vendor = s.vendor := rfl
@[simp] theorem drop_win (n : Nat) : (drop n s).win = s.win := rfl
@[simp] theorem drop_tLL (n : Nat) : (drop n s).tLL = s.tLL := rfl
@[simp] theorem drop_tD (n : Nat) : (drop n s).tD = s.tD := rfl
@[simp] theorem drop_tCL (n : Nat) : (drop n s).tCL = s.tCL := rfl
@[simp] theorem drop_clens (n : Nat) : (drop n s).clens = s.clens := rfl
@[simp] theorem drop_lens (n : Nat) : (drop n s).lens = s.lens := rfl
@[simp] theorem drop_stepping (n : Nat) : (drop n s).stepping = s.stepping := rfl
@[simp] theorem drop_port (n : Nat) : (drop n s).port = s.port := rfl
@[simp] theorem drop_response (n : Nat) : (drop n s).response = s.response := rfl
@[simp] theorem drop_draws (n : Nat) : (drop n s).draws = s.draws := rfl

@[simp] theorem pull_tag (n : Nat) : (pull n s).tag = s.tag := rfl
theorem pull_acc (n : Nat) : (pull n s).acc = (pullBytes n (s.span.drop s.ipos) s.acc).1 := rfl
@[simp] theorem pull_span (n : Nat) : (pull n s).span = s.span := rfl
theorem pull_ipos (n : Nat) : (pull n s).ipos = s.ipos + (pullBytes n (s.span.drop s.ipos) s.acc).2 := rfl
theorem pull_inTotal (n : Nat) : (pull n s).inTotal = s.inTotal + BitVec.ofNat 64 (pullBytes n (s.span.drop s.ipos) s.acc).2 := rfl
@[simp] theorem pull_bfinal (n : Nat) : (pull n s).bfinal = s.bfinal := rfl
@[simp] theorem pull_btype (n : Nat) : (pull n s).btype = s.btype := rfl
@[simp] theorem pull_storedLen (n : Nat) : (pull n s).storedLen = s.storedLen := rfl
@[simp] theorem pull_rem (n : Nat) : (pull n s).rem = s.rem := rfl
@[simp] theorem pull_hlit (n : Nat) : (pull n s).hlit = s.hlit := rfl
@[simp] theorem pull_hdist (n : Nat) : (pull n s).hdist = s.hdist := rfl
@[simp] theorem pull_hclen (n : Nat) : (pull n s).hclen = s.hclen := rfl
@[simp] theorem pull_k (n : Nat) : (pull n s).k = s.k := rfl
@[simp] theorem pull_j (n : Nat) : (pull n s).j = s.j := rfl
@[simp] theorem pull_lastLen (n : Nat) : (pull n s).lastLen = s.lastLen := rfl
@[simp] theorem pull_cur (n : Nat) : (pull n s).cur = s.cur := rfl
@[simp] theorem pull_mlen (n : Nat) : (pull n s).mlen = s.mlen := rfl
@[simp] theorem pull_dsym (n : Nat) : (pull n s).dsym = s.dsym := rfl
@[simp] theorem pull_dist (n : Nat) : (pull n s).dist = s.dist := rfl
@[simp] theorem pull_wpos (n : Nat) : (pull n s).wpos = s.wpos := rfl
@[simp] theorem pull_hist (n : Nat) : (pull n s).hist = s.hist := rfl
@[simp] theorem pull_outLen (n : Nat) : (pull n s).outLen = s.outLen := rfl
@[simp] theorem pull_flushPending (n : Nat) : (pull n s).flushPending = s.flushPending := rfl
@[simp] theorem pull_dEmpty (n : Nat) : (pull n s).dEmpty = s.dEmpty := rfl
@[simp] theorem pull_crc (n : Nat) : (pull n s).crc = s.crc := rfl
@[simp] theorem pull_status (n : Nat) : (pull n s).status = s.status := rfl
@[simp] theorem pull_errKind (n : Nat) : (pull n s).errKind = s.errKind := rfl
@[simp] theorem pull_huffReason (n : Nat) : (pull n s).huffReason = s.huffReason := rfl
@[simp] theorem pull_parseHeader (n : Nat) : (pull n s).parseHeader = s.parseHeader := rfl
@[simp] theorem pull_nlenChecked (n : Nat) : (pull n s).nlenChecked = s.nlenChecked := rfl
@[simp] theorem pull_rejectOversize (n : Nat) : (pull n s).rejectOversize = s.rejectOversize := rfl
@[simp] theorem pull_vendor (n : Nat) : (pull n s).vendor = s.vendor := rfl
@[simp] theorem pull_win (n : Nat) : (pull n s).win = s.win := rfl
@[simp] theorem pull_tLL (n : Nat) : (pull n s).tLL = s.tLL := rfl
@[simp] theorem pull_tD (n : Nat) : (pull n s).tD = s.tD := rfl
@[simp] theorem pull_tCL (n : Nat) : (pull n s).tCL = s.tCL := rfl
@[simp] theorem pull_clens (n : Nat) : (pull n s).clens = s.clens := rfl
@[simp] theorem pull_lens (n : Nat) : (pull n s).lens = s.lens := rfl
@[simp] theorem pull_stepping (n : Nat) : (pull n s).stepping = s.stepping := rfl
@[simp] theorem pull_port (n : Nat) : (pull n s).port = s.port := rfl
@[simp] theorem pull_response (n : Nat) : (pull n s).response = s.response := rfl
@[simp] theorem pull_draws (n : Nat) : (pull n s).draws = s.draws := rfl

@[simp] theorem putByte_tag (v : Byte) : (putByte v s).tag = s.tag := rfl
@[simp] theorem putByte_acc (v : Byte) : (putByte v s).acc = s.acc := rfl
@[simp] theorem putByte_span (v : Byte) : (putByte v s).span = s.span := rfl
@[simp] theorem putByte_ipos (v : Byte) : (putByte v s).ipos = s.ipos := rfl
@[simp] theorem putByte_inTotal (v : Byte) : (putByte v s).inTotal = s.inTotal := rfl
@[simp] theorem putByte_bfinal (v : Byte) : (putByte v s).bfinal = s.bfinal := rfl
@[simp] theorem putByte_btype (v : Byte) : (putByte v s).btype = s.btype := rfl
@[simp] theorem putByte_storedLen (v : Byte) : (putByte v s).storedLen = s.storedLen := rfl
@[simp] theorem putByte_rem (v : Byte) : (putByte v s).rem = s.rem := rfl
@[simp] theorem putByte_hlit (v : Byte) : (putByte v s).hlit = s.hlit := rfl
@[simp] theorem putByte_hdist (v : Byte) : (putByte v s).hdist = s.hdist := rfl
@[simp] theorem putByte_hclen (v : Byte) : (putByte v s).hclen = s.hclen := rfl
@[simp] theorem putByte_k (v : Byte) : (putByte v s).k = s.k := rfl
@[simp] theorem putByte_j (v : Byte) : (putByte v s).j = s.j := rfl
@[simp] theorem putByte_lastLen (v : Byte) : (putByte v s).lastLen = s.lastLen := rfl
@[simp] theorem putByte_cur (v : Byte) : (putByte v s).cur = s.cur := rfl
@[simp] theorem putByte_mlen (v : Byte) : (putByte v s).mlen = s.mlen := rfl
@[simp] theorem putByte_dsym (v : Byte) : (putByte v s).dsym = s.dsym := rfl
@[simp] theorem putByte_dist (v : Byte) : (putByte v s).dist = s.dist := rfl
@[simp] theorem putByte_wpos (v : Byte) : (putByte v s).wpos = s.wpos + 1#16 := rfl
@[simp] theorem putByte_hist (v : Byte) : (putByte v s).hist = histBump s.hist := rfl
@[simp] theorem putByte_outLen (v : Byte) : (putByte v s).outLen = s.outLen := rfl
@[simp] theorem putByte_flushPending (v : Byte) : (putByte v s).flushPending = s.flushPending := rfl
@[simp] theorem putByte_dEmpty (v : Byte) : (putByte v s).dEmpty = s.dEmpty := rfl
@[simp] theorem putByte_crc (v : Byte) : (putByte v s).crc = crcUpdate s.crc v := rfl
@[simp] theorem putByte_status (v : Byte) : (putByte v s).status = s.status := rfl
@[simp] theorem putByte_errKind (v : Byte) : (putByte v s).errKind = s.errKind := rfl
@[simp] theorem putByte_huffReason (v : Byte) : (putByte v s).huffReason = s.huffReason := rfl
@[simp] theorem putByte_parseHeader (v : Byte) : (putByte v s).parseHeader = s.parseHeader := rfl
@[simp] theorem putByte_nlenChecked (v : Byte) : (putByte v s).nlenChecked = s.nlenChecked := rfl
@[simp] theorem putByte_rejectOversize (v : Byte) : (putByte v s).rejectOversize = s.rejectOversize := rfl
@[simp] theorem putByte_vendor (v : Byte) : (putByte v s).vendor = s.vendor := rfl
@[simp] theorem putByte_win (v : Byte) : (putByte v s).win = Memory.write s.win s.wpos.toNat v := rfl
@[simp] theorem putByte_tLL (v : Byte) : (putByte v s).tLL = s.tLL := rfl
@[simp] theorem putByte_tD (v : Byte) : (putByte v s).tD = s.tD := rfl
@[simp] theorem putByte_tCL (v : Byte) : (putByte v s).tCL = s.tCL := rfl
@[simp] theorem putByte_clens (v : Byte) : (putByte v s).clens = s.clens := rfl
@[simp] theorem putByte_lens (v : Byte) : (putByte v s).lens = s.lens := rfl
@[simp] theorem putByte_stepping (v : Byte) : (putByte v s).stepping = s.stepping := rfl
@[simp] theorem putByte_port (v : Byte) : (putByte v s).port = s.port := rfl
@[simp] theorem putByte_response (v : Byte) : (putByte v s).response = s.response := rfl
@[simp] theorem putByte_draws (v : Byte) : (putByte v s).draws = s.draws := rfl

@[simp] theorem ackFlush_tag : (ackFlush s).tag = s.tag := by unfold ackFlush; split <;> simp_all
@[simp] theorem ackFlush_acc : (ackFlush s).acc = s.acc := by unfold ackFlush; split <;> simp_all
@[simp] theorem ackFlush_span : (ackFlush s).span = s.span := by unfold ackFlush; split <;> simp_all
@[simp] theorem ackFlush_ipos : (ackFlush s).ipos = s.ipos := by unfold ackFlush; split <;> simp_all
@[simp] theorem ackFlush_inTotal : (ackFlush s).inTotal = s.inTotal := by unfold ackFlush; split <;> simp_all
@[simp] theorem ackFlush_bfinal : (ackFlush s).bfinal = s.bfinal := by unfold ackFlush; split <;> simp_all
@[simp] theorem ackFlush_btype : (ackFlush s).btype = s.btype := by unfold ackFlush; split <;> simp_all
@[simp] theorem ackFlush_storedLen : (ackFlush s).storedLen = s.storedLen := by unfold ackFlush; split <;> simp_all
@[simp] theorem ackFlush_rem : (ackFlush s).rem = s.rem := by unfold ackFlush; split <;> simp_all
@[simp] theorem ackFlush_hlit : (ackFlush s).hlit = s.hlit := by unfold ackFlush; split <;> simp_all
@[simp] theorem ackFlush_hdist : (ackFlush s).hdist = s.hdist := by unfold ackFlush; split <;> simp_all
@[simp] theorem ackFlush_hclen : (ackFlush s).hclen = s.hclen := by unfold ackFlush; split <;> simp_all
@[simp] theorem ackFlush_k : (ackFlush s).k = s.k := by unfold ackFlush; split <;> simp_all
@[simp] theorem ackFlush_j : (ackFlush s).j = s.j := by unfold ackFlush; split <;> simp_all
@[simp] theorem ackFlush_lastLen : (ackFlush s).lastLen = s.lastLen := by unfold ackFlush; split <;> simp_all
@[simp] theorem ackFlush_cur : (ackFlush s).cur = s.cur := by unfold ackFlush; split <;> simp_all
@[simp] theorem ackFlush_mlen : (ackFlush s).mlen = s.mlen := by unfold ackFlush; split <;> simp_all
@[simp] theorem ackFlush_dsym : (ackFlush s).dsym = s.dsym := by unfold ackFlush; split <;> simp_all
@[simp] theorem ackFlush_dist : (ackFlush s).dist = s.dist := by unfold ackFlush; split <;> simp_all
@[simp] theorem ackFlush_wpos : (ackFlush s).wpos = (if s.flushPending then 0#16 else s.wpos) := by unfold ackFlush; split <;> simp_all
@[simp] theorem ackFlush_hist : (ackFlush s).hist = s.hist := by unfold ackFlush; split <;> simp_all
@[simp] theorem ackFlush_outLen : (ackFlush s).outLen = (if s.flushPending then 0#16 else s.outLen) := by unfold ackFlush; split <;> simp_all
@[simp] theorem ackFlush_flushPending : (ackFlush s).flushPending = false := by unfold ackFlush; split <;> simp_all
@[simp] theorem ackFlush_dEmpty : (ackFlush s).dEmpty = s.dEmpty := by unfold ackFlush; split <;> simp_all
@[simp] theorem ackFlush_crc : (ackFlush s).crc = s.crc := by unfold ackFlush; split <;> simp_all
@[simp] theorem ackFlush_status : (ackFlush s).status = s.status := by unfold ackFlush; split <;> simp_all
@[simp] theorem ackFlush_errKind : (ackFlush s).errKind = s.errKind := by unfold ackFlush; split <;> simp_all
@[simp] theorem ackFlush_huffReason : (ackFlush s).huffReason = s.huffReason := by unfold ackFlush; split <;> simp_all
@[simp] theorem ackFlush_parseHeader : (ackFlush s).parseHeader = s.parseHeader := by unfold ackFlush; split <;> simp_all
@[simp] theorem ackFlush_nlenChecked : (ackFlush s).nlenChecked = s.nlenChecked := by unfold ackFlush; split <;> simp_all
@[simp] theorem ackFlush_rejectOversize : (ackFlush s).rejectOversize = s.rejectOversize := by unfold ackFlush; split <;> simp_all
@[simp] theorem ackFlush_vendor : (ackFlush s).vendor = s.vendor := by unfold ackFlush; split <;> simp_all
@[simp] theorem ackFlush_win : (ackFlush s).win = s.win := by unfold ackFlush; split <;> simp_all
@[simp] theorem ackFlush_tLL : (ackFlush s).tLL = s.tLL := by unfold ackFlush; split <;> simp_all
@[simp] theorem ackFlush_tD : (ackFlush s).tD = s.tD := by unfold ackFlush; split <;> simp_all
@[simp] theorem ackFlush_tCL : (ackFlush s).tCL = s.tCL := by unfold ackFlush; split <;> simp_all
@[simp] theorem ackFlush_clens : (ackFlush s).clens = s.clens := by unfold ackFlush; split <;> simp_all
@[simp] theorem ackFlush_lens : (ackFlush s).lens = s.lens := by unfold ackFlush; split <;> simp_all
@[simp] theorem ackFlush_stepping : (ackFlush s).stepping = s.stepping := by unfold ackFlush; split <;> simp_all
@[simp] theorem ackFlush_port : (ackFlush s).port = s.port := by unfold ackFlush; split <;> simp_all
@[simp] theorem ackFlush_response : (ackFlush s).response = s.response := by unfold ackFlush; split <;> simp_all
@[simp] theorem ackFlush_draws : (ackFlush s).draws = s.draws := by unfold ackFlush; split <;> simp_all

end Sys2Proof.Machine
end

