-- ==== Sys2Proof/Laws/Operands.lean ====
section
/-! SUPPORT. What the bit reader and the symbol walker do, in terms of the stream bits not yet consumed: PULL keeps them,
READ(n) takes the first n, DECODE takes one code. -/

namespace Sys2Proof.Machine

@[simp] theorem byteBits_length (b : Byte) : (byteBits b).length = 8 := rfl

theorem flatMap_byteBits_length (bs : List Byte) : (bs.flatMap byteBits).length = 8 * bs.length := by
  induction bs with
  | nil => rfl
  | cons b bs ih => simp only [List.flatMap_cons, List.length_append, byteBits_length, ih, List.length_cons]; omega

theorem bitsValue_append (a b : List Bool) : bitsValue (a ++ b) = bitsValue a + 2 ^ a.length * bitsValue b := by
  induction a with
  | nil => simp [bitsValue]
  | cons x a ih => simp only [List.cons_append, bitsValue, ih, List.length_cons, pow_succ]; ring

theorem bitsValue_lt (a : List Bool) : bitsValue a < 2 ^ a.length := by
  induction a with
  | nil => simp [bitsValue]
  | cons x a ih =>
    simp only [bitsValue, List.length_cons, pow_succ]
    have : x.toNat ≤ 1 := Bool.toNat_le x
    omega

/-! PULL. -/

/-- PULL's loop appends the bits of the bytes it pulls, and stops with n bits or with no byte left. -/
theorem pullBytes_spec (n : Nat) (bs : List Byte) (acc : List Bool) :
    (pullBytes n bs acc).1 = acc ++ (bs.take (pullBytes n bs acc).2).flatMap byteBits ∧
      (pullBytes n bs acc).2 ≤ bs.length ∧
      (n ≤ (pullBytes n bs acc).1.length ∨ (pullBytes n bs acc).2 = bs.length) := by
  induction bs generalizing acc with
  | nil => simp [pullBytes]
  | cons b bs ih =>
    rw [pullBytes]
    split
    · obtain ⟨h1, h2, h3⟩ := ih (acc ++ byteBits b)
      refine ⟨?_, by simp only [List.length_cons]; omega, ?_⟩
      · simp only [List.take_succ_cons, List.flatMap_cons]
        rw [← List.append_assoc]
        exact h1
      · simp only [List.length_cons]
        omega
    · simp only [List.take_zero, List.flatMap_nil, List.append_nil, List.length_cons, Nat.zero_le, true_and]
      omega

theorem pullBytes_length_le (n : Nat) (bs : List Byte) (acc : List Bool) :
    (pullBytes n bs acc).1.length ≤ max acc.length (n + 7) := by
  induction bs generalizing acc with
  | nil => simp [pullBytes]
  | cons b bs ih =>
    rw [pullBytes]
    split
    · have := ih (acc ++ byteBits b)
      simp only [List.length_append, byteBits_length] at this
      refine le_trans this ?_
      omega
    · simp

/-- A larger pull after a smaller one is the larger one. -/
theorem pullBytes_pullBytes (m n : Nat) (h : m ≤ n) (bs : List Byte) (acc : List Bool) :
    pullBytes n (bs.drop (pullBytes m bs acc).2) (pullBytes m bs acc).1 =
      ((pullBytes n bs acc).1, (pullBytes n bs acc).2 - (pullBytes m bs acc).2) ∧
    (pullBytes m bs acc).2 ≤ (pullBytes n bs acc).2 := by
  induction bs generalizing acc with
  | nil => simp [pullBytes]
  | cons b bs ih =>
    by_cases hm : acc.length < m
    · have hn : acc.length < n := by omega
      obtain ⟨h1, h2⟩ := ih (acc ++ byteBits b)
      simp only [pullBytes, hm, hn, if_true, List.drop_succ_cons]
      refine ⟨?_, by omega⟩
      rw [h1]
      simp
    · simp [pullBytes, hm]

theorem streamBits_pull (n : Nat) (s : State) : streamBits (pull n s) = streamBits s := by
  obtain ⟨h1, -, -⟩ := pullBytes_spec n (s.span.drop s.ipos) s.acc
  simp only [streamBits, unread, pull]
  rw [h1, List.append_assoc, ← List.flatMap_append]
  rw [show s.span.drop (s.ipos + (pullBytes n (s.span.drop s.ipos) s.acc).2) =
    (s.span.drop s.ipos).drop (pullBytes n (s.span.drop s.ipos) s.acc).2 by rw [List.drop_drop]]
  rw [List.take_append_drop]

@[simp] theorem avail_pull (n : Nat) (s : State) : avail (pull n s) = avail s := by
  rw [avail, streamBits_pull, avail]

theorem avail_eq (s : State) : avail s = s.acc.length + 8 * (s.span.length - s.ipos) := by
  rw [avail, streamBits, List.length_append, flatMap_byteBits_length, unread, List.length_drop]

theorem acc_length_le_avail (s : State) : s.acc.length ≤ avail s := by
  rw [avail_eq]; omega

/-- A pull leaves fewer than n bits exactly when fewer are at hand. -/
theorem pull_short_iff (n : Nat) (s : State) : (pull n s).acc.length < n ↔ avail s < n := by
  obtain ⟨-, h2, h3⟩ := pullBytes_spec n (s.span.drop s.ipos) s.acc
  have hle := acc_length_le_avail (pull n s)
  rw [avail_pull] at hle
  constructor
  · intro h
    have h4 : (pullBytes n (s.span.drop s.ipos) s.acc).2 = (s.span.drop s.ipos).length := by
      rcases h3 with h3 | h3
      · have : (pull n s).acc.length = (pullBytes n (s.span.drop s.ipos) s.acc).1.length := rfl
        omega
      · exact h3
    have h5 := avail_eq (pull n s)
    rw [avail_pull, pull_ipos, pull_span, h4, List.length_drop] at h5
    omega
  · intro h; omega

theorem pull_pull (m n : Nat) (h : m ≤ n) (s : State) : pull n (pull m s) = pull n s := by
  obtain ⟨h1, h2⟩ := pullBytes_pullBytes m n h (s.span.drop s.ipos) s.acc
  rw [List.drop_drop] at h1
  simp only [pull, h1]
  have e : (pullBytes m (s.span.drop s.ipos) s.acc).2 +
      ((pullBytes n (s.span.drop s.ipos) s.acc).2 - (pullBytes m (s.span.drop s.ipos) s.acc).2) =
      (pullBytes n (s.span.drop s.ipos) s.acc).2 := by omega
  congr 1
  · rw [Nat.add_assoc, e]
  · rw [BitVec.add_assoc, ← BitVec.ofNat_add, e]

theorem pull_zero (s : State) : pull 0 s = s := by
  have : ∀ bs acc, pullBytes 0 bs acc = (acc, 0) := by
    intro bs acc; cases bs <;> simp [pullBytes]
  simp [pull, this]

theorem pull_acc_length_le (n : Nat) (s : State) : (pull n s).acc.length ≤ max s.acc.length (n + 7) :=
  pullBytes_length_le n _ _

theorem pull_ipos_le (n : Nat) (s : State) (h : s.ipos ≤ s.span.length) : (pull n s).ipos ≤ s.span.length := by
  obtain ⟨-, h2, -⟩ := pullBytes_spec n (s.span.drop s.ipos) s.acc
  rw [List.length_drop] at h2
  rw [pull_ipos]; omega

/-! PEEK and READ. -/

/-- PEEK(n): the value of the next n stream bits when they are at hand; else it falls short. -/
theorem peek_eq (n : Nat) (hn : n ≤ Config.maxRequest) (s : State) :
    peek n s = if avail s < n then .short (pull n s) else .got (streamValue n s) (pull n s) := by
  have h16 : ¬ Config.maxRequest < n := by omega
  rw [peek, if_neg h16]
  by_cases h : avail s < n
  · rw [if_pos ((pull_short_iff n s).2 h), if_pos h]
  · have h' : ¬ (pull n s).acc.length < n := fun hc => h ((pull_short_iff n s).1 hc)
    rw [if_neg h', if_neg h]
    congr 2
    rw [← streamBits_pull n s, streamBits, List.take_append_of_le_length (by omega)]

/-- A micro-step on PEEK(n). -/
theorem withPeek_eq (n : Nat) (hn : n ≤ Config.maxRequest) (s : State) (go : Nat → State → Micro) :
    withPeek n s go = if avail s < n then .suspend (pull n s) else go (streamValue n s) (pull n s) := by
  rw [withPeek, peek_eq n hn]
  by_cases h : avail s < n
  · rw [if_pos h, if_pos h]
  · rw [if_neg h, if_neg h]

/-- A micro-step on READ(n). -/
theorem withRead_eq (n : Nat) (hn : n ≤ Config.maxRequest) (s : State) (go : Nat → State → Micro) :
    withRead n s go = if avail s < n then .suspend (pull n s) else go (streamValue n s) (afterRead n s) := by
  rw [withRead, withPeek_eq n hn]; rfl

/-- READ(n) consumes the first n stream bits. -/
theorem streamBits_afterRead (n : Nat) (s : State) (h : n ≤ avail s) :
    streamBits (afterRead n s) = (streamBits s).drop n := by
  have h' : n ≤ (pull n s).acc.length := by
    by_contra hc
    exact absurd ((pull_short_iff n s).1 (by omega)) (by omega)
  rw [← streamBits_pull n s]
  simp only [streamBits]
  rw [List.drop_append_of_le_length h']
  rfl

theorem avail_afterRead (n : Nat) (s : State) (h : n ≤ avail s) : avail (afterRead n s) = avail s - n := by
  rw [avail, streamBits_afterRead n s h, List.length_drop, avail]

theorem streamValue_lt (n : Nat) (s : State) (h : n ≤ avail s) : streamValue n s < 2 ^ n := by
  have := bitsValue_lt ((streamBits s).take n)
  rwa [List.length_take, min_eq_left (show n ≤ (streamBits s).length from h)] at this

/-! DECODE. -/

/-- The bit that PEEK(n) adds to the n − 1 bits before it. -/
theorem streamValue_top_bit (n : Nat) (s : State) (pre : List Bool) (b : Bool) (rest : List Bool)
    (hs : streamBits s = pre ++ b :: rest) (hp : pre.length + 1 = n) : streamValue n s / 2 ^ (n - 1) = b.toNat := by
  have e : (streamBits s).take n = pre ++ [b] := by
    rw [hs, ← hp, show pre ++ b :: rest = (pre ++ [b]) ++ rest by simp]
    exact List.take_left' (by simp)
  rw [streamValue, e, bitsValue_append]
  have h1 := bitsValue_lt pre
  rw [show n - 1 = pre.length by omega]
  rw [Nat.add_mul_div_left _ _ (by positivity), Nat.div_eq_of_lt h1]
  simp [bitsValue]

/-- The walk from the n-th code bit on, when a whole code follows the n − 1 bits already looked at. -/
theorem walkFrom_of_followCode (t : Memory Entry) (code : List Bool) :
    ∀ (fuel n idx : Nat) (s : State) (pre rest : List Bool) (v : Nat),
      streamBits s = pre ++ code ++ rest → pre.length + 1 = n → code.length ≤ fuel → n + code.length ≤ 17 →
      followCode t idx code = some v →
      walkFrom t fuel n idx s = .leaf v (afterRead (pre.length + code.length) s) := by
  induction code with
  | nil => intro fuel n idx s pre rest v _ _ _ _ hf; simp [followCode] at hf
  | cons b bs ih =>
    intro fuel n idx s pre rest v hs hp hfuel hn hf
    obtain ⟨fuel, rfl⟩ : ∃ k, fuel = k + 1 := ⟨fuel - 1, by simp only [List.length_cons] at hfuel; omega⟩
    simp only [List.length_cons] at hfuel hn ⊢
    have hav : ¬ avail s < n := by
      rw [avail, hs]; simp only [List.length_append, List.length_cons]; omega
    rw [walkFrom, peek_eq n (by show n ≤ 16; omega), if_neg hav]
    simp only
    rw [streamValue_top_bit n s pre b (bs ++ rest) (by simpa using hs) hp]
    rw [followCode] at hf
    split at hf
    · cases hf
    · rename_i e he
      try simp only [he]
      split at hf
      · rename_i hm
        rw [if_pos hm]
        have := ih fuel (n + 1) (~~~e).toNat (pull n s) (pre ++ [b]) rest v
          (by rw [streamBits_pull]; simpa using hs) (by simp; omega) (by omega) (by omega) hf
        rw [this]
        simp only [List.length_append, List.length_singleton]
        rw [afterRead, pull_pull n _ (by omega), ← afterRead]
        congr 2
        omega
      · rename_i hm
        rw [if_neg hm]
        split at hf
        · rename_i hbs
          subst hbs
          simp only [Option.some.injEq] at hf
          subst hf
          rw [afterRead]
          simp [hp]
        · cases hf

/-- DECODE takes the code that the next stream bits spell, and consumes exactly its bits. -/
theorem walk_of_followCode (t : Memory Entry) (code rest : List Bool) (s : State) (v : Nat)
    (hs : streamBits s = code ++ rest) (hl : code.length ≤ 15) (hf : followCode t 0 code = some v) :
    walk t s = .leaf v (afterRead code.length s) := by
  have := walkFrom_of_followCode t code 15 1 0 s [] rest v (by simpa using hs) rfl hl (by omega) hf
  simpa [walk] using this

/-- Everything DECODE can do from the n-th code bit on. -/
theorem walkFrom_cases (t : Memory Entry) (fuel : Nat) : ∀ (n idx : Nat) (s : State), 1 ≤ n → n + fuel ≤ 17 →
    (∃ k e i, n ≤ k ∧ k < n + fuel ∧ k ≤ avail s ∧ Memory.read t i = some e ∧ e.msb = false ∧
      walkFrom t fuel n idx s = .leaf e.toNat (afterRead k s)) ∨
    (∃ k, n ≤ k ∧ k < n + fuel ∧ avail s < k ∧ walkFrom t fuel n idx s = .short (pull k s)) ∨
    (∃ k, k < n + fuel ∧ (fuel = 0 ∨ n ≤ k) ∧
      walkFrom t fuel n idx s = .noLeaf (if fuel = 0 then s else pull k s)) ∨
    walkFrom t fuel n idx s = .hole := by
  induction fuel with
  | zero =>
    intro n idx s h1 _
    exact .inr (.inr (.inl ⟨n - 1, by omega, .inl rfl, by simp [walkFrom]⟩))
  | succ fuel ih =>
    intro n idx s h1 h2
    rw [walkFrom, peek_eq n (by show n ≤ 16; omega)]
    by_cases hav : avail s < n
    · exact .inr (.inl ⟨n, le_refl n, by omega, hav, by rw [if_pos hav]⟩)
    · rw [if_neg hav]
      simp only
      cases he : Memory.read t (idx + streamValue n s / 2 ^ (n - 1)) with
      | none => exact .inr (.inr (.inr rfl))
      | some e =>
        simp only
        by_cases hm : e.msb
        · rw [if_pos hm]
          rcases ih (n + 1) (~~~e).toNat (pull n s) (by omega) (by omega) with
            ⟨k, e', i, h3, h4, h5, h6, h7, h8⟩ | ⟨k, h3, h4, h5, h6⟩ | ⟨k, h3, h4, h5⟩ | h3
          · refine .inl ⟨k, e', i, by omega, by omega, by simpa using h5, h6, h7, ?_⟩
            rw [h8, afterRead, pull_pull n k (by omega), ← afterRead]
          · refine .inr (.inl ⟨k, by omega, by omega, by simpa using h5, ?_⟩)
            rw [h6, pull_pull n k (by omega)]
          · by_cases hf : fuel = 0
            · refine .inr (.inr (.inl ⟨n, by omega, .inr (le_refl n), ?_⟩))
              rw [h5]; simp [hf]
            · refine .inr (.inr (.inl ⟨k, by omega, .inr (by omega), ?_⟩))
              rw [h5]; simp [hf, pull_pull n k (by omega)]
          · exact .inr (.inr (.inr h3))
        · rw [if_neg hm]
          refine .inl ⟨n, e, _, le_refl n, by omega, by omega, he, by simpa using hm, rfl⟩

/-- Everything DECODE can do: a leaf of the table after k bits, a missing bit, 15 bits without a leaf, an unwritten
entry. -/
theorem walk_cases (t : Memory Entry) (s : State) :
    (∃ k e i, 1 ≤ k ∧ k ≤ 15 ∧ k ≤ avail s ∧ Memory.read t i = some e ∧ e.msb = false ∧
      walk t s = .leaf e.toNat (afterRead k s)) ∨
    (∃ k, 1 ≤ k ∧ k ≤ 15 ∧ avail s < k ∧ walk t s = .short (pull k s)) ∨
    (∃ k, 1 ≤ k ∧ k ≤ 15 ∧ walk t s = .noLeaf (pull k s)) ∨
    walk t s = .hole := by
  rcases walkFrom_cases t 15 1 0 s (le_refl 1) (by omega) with
    ⟨k, e, i, h1, h2, h3, h4, h5, h6⟩ | ⟨k, h1, h2, h3, h4⟩ | ⟨k, h1, h2, h3⟩ | h1
  · exact .inl ⟨k, e, i, h1, by omega, h3, h4, h5, h6⟩
  · exact .inr (.inl ⟨k, h1, by omega, h3, h4⟩)
  · exact .inr (.inr (.inl ⟨k, by omega, by omega, by
      change walkFrom t 15 1 0 s = _
      simpa using h3⟩))
  · exact .inr (.inr (.inr h1))

/-- A walk that starts at a pair of a closed run of entries meets no unwritten entry, and its leaf is below the bound. -/
theorem walkFrom_closed (t : Memory Entry) (m bound : Nat)
    (hc : ∀ i, i < m → ∃ e, Memory.read t i = some e ∧ (e.msb = false → e.toNat < bound) ∧
      (e.msb = true → (~~~e).toNat + 1 < m)) (fuel : Nat) :
    ∀ (n idx : Nat) (s : State), 1 ≤ n → n + fuel ≤ 17 → idx + 1 < m →
      walkFrom t fuel n idx s ≠ .hole ∧ ∀ v u, walkFrom t fuel n idx s = .leaf v u → v < bound := by
  induction fuel with
  | zero => intro n idx s _ _ _; simp [walkFrom]
  | succ fuel ih =>
    intro n idx s h1 h2 h3
    rw [walkFrom, peek_eq n (by show n ≤ 16; omega)]
    by_cases hav : avail s < n
    · rw [if_pos hav]; simp
    · rw [if_neg hav]
      simp only
      have hv : streamValue n s / 2 ^ (n - 1) ≤ 1 := by
        have := streamValue_lt n s (by omega)
        have e : 2 ^ n = 2 ^ (n - 1) * 2 := by rw [← pow_succ, show n - 1 + 1 = n by omega]
        have : streamValue n s / 2 ^ (n - 1) < 2 := Nat.div_lt_of_lt_mul (by omega)
        omega
      obtain ⟨e, he, hl, hi⟩ := hc (idx + streamValue n s / 2 ^ (n - 1)) (by omega)
      simp only [he]
      by_cases hm : e.msb = true
      · rw [if_pos hm]
        exact ih (n + 1) (~~~e).toNat (pull n s) (by omega) (by omega) (hi hm)
      · rw [if_neg hm]
        refine ⟨by simp, fun v u h => ?_⟩
        simp only [Walk.leaf.injEq] at h
        rw [← h.1]
        exact hl (by simpa using hm)

/-- DECODE on a closed table meets no unwritten entry, and its symbol is below the table's bound (R237). -/
theorem walk_closed (t : Memory Entry) (bound : Nat) (hc : TableClosed t bound) (s : State) :
    walk t s ≠ .hole ∧ ∀ v u, walk t s = .leaf v u → v < bound := by
  obtain ⟨m, h2, h⟩ := hc
  exact walkFrom_closed t m bound h 15 1 0 s (le_refl 1) (by omega) (by omega)

end Sys2Proof.Machine
end

