-- ==== Sys2Proof/Laws/Ops.lean ====
section
/-! SUPPORT. What the shared operations can answer: one lemma each, so that no later proof unfolds them. -/

namespace Sys2Proof.Machine

/-- The next states of `finish`: how a micro-step that did not stop leaves the STEP (R431). -/
theorem finish_next {m : Micro} {t : State} (h : finish m = .next t) :
    (∃ s, m = .cont s ∧ t = afterContinue s) ∨ (∃ e s, m = .event e s ∧ t = endStep (eventStatus e) s) ∨
      (∃ s, m = .suspend s ∧ t = endStep Status.needMoreInput s) ∨ (∃ k s, m = .raise k s ∧ t = fatal k s) := by
  cases m with
  | cont s => exact .inl ⟨s, rfl, by simpa [finish] using h.symm⟩
  | event e s => exact .inr (.inl ⟨e, s, rfl, by simpa [finish] using h.symm⟩)
  | suspend s => exact .inr (.inr (.inl ⟨s, rfl, by simpa [finish] using h.symm⟩))
  | raise k s => exact .inr (.inr (.inr ⟨k, s, rfl, by simpa [finish] using h.symm⟩))
  | stop f => simp [finish] at h

/-- `finish` stops exactly when the micro-step does. -/
theorem finish_fault {m : Micro} {f : Fault} : finish m = .fault f ↔ m = .stop f := by
  cases m <;> simp [finish]

theorem finish_not_refused (m : Micro) (r : Refusal) : finish m ≠ .refused r := by
  cases m <;> simp [finish]

/-- PUT with room: it goes on, or it hands over the full window (R340). -/
theorem put_room (v : Byte) (s : State) (h : s.wpos.toNat < 32768) :
    put v s = if s.wpos.toNat + 1 = 32768 then
        .event .outputFull { putByte v s with outLen := 32768#16, flushPending := true }
      else .cont (putByte v s) := by
  rw [put, if_neg (by simpa using h)]

/-- PUT without room stops: WIN has no such index. -/
theorem put_full (v : Byte) (s : State) (h : 32768 ≤ s.wpos.toNat) : put v s = .stop .winOutside := by
  rw [put, if_pos (by simpa using h)]

/-- WIN after PUT: one byte differs. -/
theorem putByte_read (v : Byte) (s : State) (a : Nat) :
    Memory.read (putByte v s).win a = if a = s.wpos.toNat then some v else Memory.read s.win a := by
  rw [putByte_win]
  by_cases h : a = s.wpos.toNat
  · rw [if_pos h, h, read_write_same]
  · rw [if_neg h, read_write_other _ _ _ _ h]

/-- The flush acknowledgement (R341). -/
theorem ackFlush_cases (s : State) :
    (s.flushPending = true ∧ ackFlush s = { s with wpos := 0#16, outLen := 0#16, flushPending := false }) ∨
      (s.flushPending = false ∧ ackFlush s = s) := by
  cases h : s.flushPending with
  | true => exact .inl ⟨rfl, by simp [ackFlush, h]⟩
  | false => exact .inr ⟨rfl, by simp [ackFlush, h]⟩

/-- A micro-step over a build: the failure is raised with its reason, anything else goes on (R239). -/
theorem withBuild_cases (b : Built) (s : State) (go : State → Micro) :
    (∃ r, b = .fail r ∧ withBuild b s go = .raise .huffmanTableGenFailed { s with huffReason := huffCode r }) ∨
      ((∀ r, b ≠ .fail r) ∧ withBuild b s go = go s) := by
  cases b with
  | fail r => exact .inl ⟨r, rfl, rfl⟩
  | empty => exact .inr ⟨fun _ h => (nomatch h), rfl⟩
  | table es => exact .inr ⟨fun _ h => (nomatch h), rfl⟩

/-- BUILD answers `empty` only where an empty alphabet is allowed (R232). -/
theorem build_empty {ls : List Nat} {allowEmpty : Bool} (h : build ls allowEmpty = .empty) : allowEmpty = true := by
  rw [build] at h
  repeat' split at h
  all_goals first | rfl | assumption | (cases h)

/-- A micro-step over a symbol: what the walk gives (R240). -/
theorem withSymbol_cases (t : Memory Entry) (s : State) (go : Nat → State → Micro) :
    (∃ v u, walk t s = .leaf v u ∧ withSymbol t s go = go v u) ∨
      (∃ u, walk t s = .short u ∧ withSymbol t s go = .suspend u) ∨
      (∃ u, walk t s = .noLeaf u ∧ withSymbol t s go = .raise .invalidState u) ∨
      (walk t s = .hole ∧ withSymbol t s go = .stop .tableUnwritten) := by
  rw [withSymbol]
  cases walk t s with
  | leaf v u => exact .inl ⟨v, u, rfl, rfl⟩
  | short u => exact .inr (.inl ⟨u, rfl, rfl⟩)
  | noLeaf u => exact .inr (.inr (.inl ⟨u, rfl, rfl⟩))
  | hole => exact .inr (.inr (.inr ⟨rfl, rfl⟩))

end Sys2Proof.Machine
end

