-- ==== Sys2Proof/Laws/PerInstr.lean ====
section
/-! SUPPORT. A property of every instruction as syntax, one lemma per constructor: its encoding fits its format. -/

namespace Sys2Proof.Laws.EncodeFits

/-- The bits of a format's values: its field, and above a symbol the largest count of extra bits (R122 to R130, R135, R32). -/
def formatBits : Format → Nat
  | .zhdr16 => 16
  | .bhdr3 => 3
  | .storedLen => 16
  | .storedNlen => 16
  | .storedByte => 8
  | .dynHlit => 5
  | .dynHdist => 5
  | .dynHclen => 4
  | .dynCll => 3
  | .clsym => 12
  | .llsym => 14
  | .dsym => 18
  | .cmd32 => 32
  | .tag5 => 5

/-- The encoding has no bit above the format's. -/
def Statement (i : Instr) : Prop := encode i < 2 ^ formatBits (formatOf i)

theorem fits_bitvec {n : Nat} (x : BitVec n) (k base m : Nat) (h : base + (2 ^ n - 1) * k < m) : base + x.toNat * k < m := by
  have h1 : x.toNat ≤ 2 ^ n - 1 := by have := x.isLt; omega
  have := Nat.mul_le_mul_right k h1
  omega

theorem zlibHdr (v : BitVec 16) : Statement (.zlibHdr v) := v.isLt

theorem zlibFdict (v : BitVec 16) : Statement (.zlibFdict v) := v.isLt

theorem rawNoHdr (v : BitVec 16) : Statement (.rawNoHdr v) := v.isLt

theorem blkStored (final : Bool) : Statement (.blkStored final) := by cases final <;> (unfold Statement; decide)

theorem blkFixed (final : Bool) : Statement (.blkFixed final) := by cases final <;> (unfold Statement; decide)

theorem blkDynamic (final : Bool) : Statement (.blkDynamic final) := by cases final <;> (unfold Statement; decide)

theorem blkReserved (final : Bool) : Statement (.blkReserved final) := by cases final <;> (unfold Statement; decide)

theorem len16 (v : BitVec 16) : Statement (.len16 v) := v.isLt

theorem nlen16 (v : BitVec 16) : Statement (.nlen16 v) := v.isLt

theorem storedByte (b : Byte) : Statement (.storedByte b) := b.isLt

theorem hlit5 (v : BitVec 5) : Statement (.hlit5 v) := v.isLt

theorem hdist5 (v : BitVec 5) : Statement (.hdist5 v) := v.isLt

theorem hclen4 (v : BitVec 4) : Statement (.hclen4 v) := v.isLt

theorem cll3 (v : BitVec 3) : Statement (.cll3 v) := v.isLt

theorem clLen0 : Statement (.clLen0) := by unfold Statement; decide

theorem clLen1 : Statement (.clLen1) := by unfold Statement; decide

theorem clLen2 : Statement (.clLen2) := by unfold Statement; decide

theorem clLen3 : Statement (.clLen3) := by unfold Statement; decide

theorem clLen4 : Statement (.clLen4) := by unfold Statement; decide

theorem clLen5 : Statement (.clLen5) := by unfold Statement; decide

theorem clLen6 : Statement (.clLen6) := by unfold Statement; decide

theorem clLen7 : Statement (.clLen7) := by unfold Statement; decide

theorem clLen8 : Statement (.clLen8) := by unfold Statement; decide

theorem clLen9 : Statement (.clLen9) := by unfold Statement; decide

theorem clLen10 : Statement (.clLen10) := by unfold Statement; decide

theorem clLen11 : Statement (.clLen11) := by unfold Statement; decide

theorem clLen12 : Statement (.clLen12) := by unfold Statement; decide

theorem clLen13 : Statement (.clLen13) := by unfold Statement; decide

theorem clLen14 : Statement (.clLen14) := by unfold Statement; decide

theorem clLen15 : Statement (.clLen15) := by unfold Statement; decide

theorem rep16 (x : BitVec 2) : Statement (.rep16 x) := fits_bitvec x 32 16 (2 ^ 12) (by decide)

theorem zero17 (x : BitVec 3) : Statement (.zero17 x) := fits_bitvec x 32 17 (2 ^ 12) (by decide)

theorem zero18 (x : BitVec 7) : Statement (.zero18 x) := fits_bitvec x 32 18 (2 ^ 12) (by decide)

theorem lit (b : Byte) : Statement (.lit b) := by
  have := b.isLt
  change b.toNat < 2 ^ 14
  omega

theorem eob : Statement (.eob) := by unfold Statement; decide

theorem len257 : Statement (.len257) := by unfold Statement; decide

theorem len258 : Statement (.len258) := by unfold Statement; decide

theorem len259 : Statement (.len259) := by unfold Statement; decide

theorem len260 : Statement (.len260) := by unfold Statement; decide

theorem len261 : Statement (.len261) := by unfold Statement; decide

theorem len262 : Statement (.len262) := by unfold Statement; decide

theorem len263 : Statement (.len263) := by unfold Statement; decide

theorem len264 : Statement (.len264) := by unfold Statement; decide

theorem len265 (x : BitVec 1) : Statement (.len265 x) := fits_bitvec x 512 265 (2 ^ 14) (by decide)

theorem len266 (x : BitVec 1) : Statement (.len266 x) := fits_bitvec x 512 266 (2 ^ 14) (by decide)

theorem len267 (x : BitVec 1) : Statement (.len267 x) := fits_bitvec x 512 267 (2 ^ 14) (by decide)

theorem len268 (x : BitVec 1) : Statement (.len268 x) := fits_bitvec x 512 268 (2 ^ 14) (by decide)

theorem len269 (x : BitVec 2) : Statement (.len269 x) := fits_bitvec x 512 269 (2 ^ 14) (by decide)

theorem len270 (x : BitVec 2) : Statement (.len270 x) := fits_bitvec x 512 270 (2 ^ 14) (by decide)

theorem len271 (x : BitVec 2) : Statement (.len271 x) := fits_bitvec x 512 271 (2 ^ 14) (by decide)

theorem len272 (x : BitVec 2) : Statement (.len272 x) := fits_bitvec x 512 272 (2 ^ 14) (by decide)

theorem len273 (x : BitVec 3) : Statement (.len273 x) := fits_bitvec x 512 273 (2 ^ 14) (by decide)

theorem len274 (x : BitVec 3) : Statement (.len274 x) := fits_bitvec x 512 274 (2 ^ 14) (by decide)

theorem len275 (x : BitVec 3) : Statement (.len275 x) := fits_bitvec x 512 275 (2 ^ 14) (by decide)

theorem len276 (x : BitVec 3) : Statement (.len276 x) := fits_bitvec x 512 276 (2 ^ 14) (by decide)

theorem len277 (x : BitVec 4) : Statement (.len277 x) := fits_bitvec x 512 277 (2 ^ 14) (by decide)

theorem len278 (x : BitVec 4) : Statement (.len278 x) := fits_bitvec x 512 278 (2 ^ 14) (by decide)

theorem len279 (x : BitVec 4) : Statement (.len279 x) := fits_bitvec x 512 279 (2 ^ 14) (by decide)

theorem len280 (x : BitVec 4) : Statement (.len280 x) := fits_bitvec x 512 280 (2 ^ 14) (by decide)

theorem len281 (x : BitVec 5) : Statement (.len281 x) := fits_bitvec x 512 281 (2 ^ 14) (by decide)

theorem len282 (x : BitVec 5) : Statement (.len282 x) := fits_bitvec x 512 282 (2 ^ 14) (by decide)

theorem len283 (x : BitVec 5) : Statement (.len283 x) := fits_bitvec x 512 283 (2 ^ 14) (by decide)

theorem len284 (x : BitVec 5) : Statement (.len284 x) := fits_bitvec x 512 284 (2 ^ 14) (by decide)

theorem len285 : Statement (.len285) := by unfold Statement; decide

theorem llInvalid286 : Statement (.llInvalid286) := by unfold Statement; decide

theorem llInvalid287 : Statement (.llInvalid287) := by unfold Statement; decide

theorem dist0 : Statement (.dist0) := by unfold Statement; decide

theorem dist1 : Statement (.dist1) := by unfold Statement; decide

theorem dist2 : Statement (.dist2) := by unfold Statement; decide

theorem dist3 : Statement (.dist3) := by unfold Statement; decide

theorem dist4 (x : BitVec 1) : Statement (.dist4 x) := fits_bitvec x 32 4 (2 ^ 18) (by decide)

theorem dist5 (x : BitVec 1) : Statement (.dist5 x) := fits_bitvec x 32 5 (2 ^ 18) (by decide)

theorem dist6 (x : BitVec 2) : Statement (.dist6 x) := fits_bitvec x 32 6 (2 ^ 18) (by decide)

theorem dist7 (x : BitVec 2) : Statement (.dist7 x) := fits_bitvec x 32 7 (2 ^ 18) (by decide)

theorem dist8 (x : BitVec 3) : Statement (.dist8 x) := fits_bitvec x 32 8 (2 ^ 18) (by decide)

theorem dist9 (x : BitVec 3) : Statement (.dist9 x) := fits_bitvec x 32 9 (2 ^ 18) (by decide)

theorem dist10 (x : BitVec 4) : Statement (.dist10 x) := fits_bitvec x 32 10 (2 ^ 18) (by decide)

theorem dist11 (x : BitVec 4) : Statement (.dist11 x) := fits_bitvec x 32 11 (2 ^ 18) (by decide)

theorem dist12 (x : BitVec 5) : Statement (.dist12 x) := fits_bitvec x 32 12 (2 ^ 18) (by decide)

theorem dist13 (x : BitVec 5) : Statement (.dist13 x) := fits_bitvec x 32 13 (2 ^ 18) (by decide)

theorem dist14 (x : BitVec 6) : Statement (.dist14 x) := fits_bitvec x 32 14 (2 ^ 18) (by decide)

theorem dist15 (x : BitVec 6) : Statement (.dist15 x) := fits_bitvec x 32 15 (2 ^ 18) (by decide)

theorem dist16 (x : BitVec 7) : Statement (.dist16 x) := fits_bitvec x 32 16 (2 ^ 18) (by decide)

theorem dist17 (x : BitVec 7) : Statement (.dist17 x) := fits_bitvec x 32 17 (2 ^ 18) (by decide)

theorem dist18 (x : BitVec 8) : Statement (.dist18 x) := fits_bitvec x 32 18 (2 ^ 18) (by decide)

theorem dist19 (x : BitVec 8) : Statement (.dist19 x) := fits_bitvec x 32 19 (2 ^ 18) (by decide)

theorem dist20 (x : BitVec 9) : Statement (.dist20 x) := fits_bitvec x 32 20 (2 ^ 18) (by decide)

theorem dist21 (x : BitVec 9) : Statement (.dist21 x) := fits_bitvec x 32 21 (2 ^ 18) (by decide)

theorem dist22 (x : BitVec 10) : Statement (.dist22 x) := fits_bitvec x 32 22 (2 ^ 18) (by decide)

theorem dist23 (x : BitVec 10) : Statement (.dist23 x) := fits_bitvec x 32 23 (2 ^ 18) (by decide)

theorem dist24 (x : BitVec 11) : Statement (.dist24 x) := fits_bitvec x 32 24 (2 ^ 18) (by decide)

theorem dist25 (x : BitVec 11) : Statement (.dist25 x) := fits_bitvec x 32 25 (2 ^ 18) (by decide)

theorem dist26 (x : BitVec 12) : Statement (.dist26 x) := fits_bitvec x 32 26 (2 ^ 18) (by decide)

theorem dist27 (x : BitVec 12) : Statement (.dist27 x) := fits_bitvec x 32 27 (2 ^ 18) (by decide)

theorem dist28 (x : BitVec 13) : Statement (.dist28 x) := fits_bitvec x 32 28 (2 ^ 18) (by decide)

theorem dist29 (x : BitVec 13) : Statement (.dist29 x) := fits_bitvec x 32 29 (2 ^ 18) (by decide)

theorem dInvalid30 : Statement (.dInvalid30) := by unfold Statement; decide

theorem dInvalid31 : Statement (.dInvalid31) := by unfold Statement; decide

theorem cmdOpen (span : List Byte) (ph : Bool) (nla : Bool) (vnd : Bool) (ovr : Bool) : Statement (.cmdOpen span ph nla vnd ovr) := by
  unfold Statement
  change ph.toNat * 8 + nla.toNat * 16 + vnd.toNat * 32 + ovr.toNat * 64 < 2 ^ 32
  cases ph <;> cases nla <;> cases vnd <;> cases ovr <;> decide

theorem cmdStep : Statement (.cmdStep) := by unfold Statement; decide

theorem cmdSupply (span : List Byte) : Statement (.cmdSupply span) := (by decide : (2 : Nat) < 2 ^ 32)

theorem cmdIsFinal : Statement (.cmdIsFinal) := by unfold Statement; decide

theorem cmdPosition : Statement (.cmdPosition) := by unfold Statement; decide

theorem cmdReadCrc : Statement (.cmdReadCrc) := by unfold Statement; decide

theorem cmdReadOut (index : BitVec 16) : Statement (.cmdReadOut index) := fits_bitvec index 65536 5 (2 ^ 32) (by decide)

theorem cmdReserved (rest : BitVec 29) : Statement (.cmdReserved rest) := fits_bitvec rest 8 7 (2 ^ 32) (by decide)

theorem tagUnopened : Statement (.tagUnopened) := by unfold Statement; decide

theorem tagZhdr : Statement (.tagZhdr) := by unfold Statement; decide

theorem tagBhdr : Statement (.tagBhdr) := by unfold Statement; decide

theorem tagStLen : Statement (.tagStLen) := by unfold Statement; decide

theorem tagStNlen : Statement (.tagStNlen) := by unfold Statement; decide

theorem tagStCopy : Statement (.tagStCopy) := by unfold Statement; decide

theorem tagFxBuild : Statement (.tagFxBuild) := by unfold Statement; decide

theorem tagDyHlit : Statement (.tagDyHlit) := by unfold Statement; decide

theorem tagDyHdist : Statement (.tagDyHdist) := by unfold Statement; decide

theorem tagDyHclen : Statement (.tagDyHclen) := by unfold Statement; decide

theorem tagDyCll : Statement (.tagDyCll) := by unfold Statement; decide

theorem tagDyClbuild : Statement (.tagDyClbuild) := by unfold Statement; decide

theorem tagDyLsym : Statement (.tagDyLsym) := by unfold Statement; decide

theorem tagDyLextra : Statement (.tagDyLextra) := by unfold Statement; decide

theorem tagDyBuild : Statement (.tagDyBuild) := by unfold Statement; decide

theorem tagSym : Statement (.tagSym) := by unfold Statement; decide

theorem tagLenExtra : Statement (.tagLenExtra) := by unfold Statement; decide

theorem tagDsym : Statement (.tagDsym) := by unfold Statement; decide

theorem tagDistExtra : Statement (.tagDistExtra) := by unfold Statement; decide

theorem tagCopy : Statement (.tagCopy) := by unfold Statement; decide

theorem tagBlkEnd : Statement (.tagBlkEnd) := by unfold Statement; decide

theorem tagFin : Statement (.tagFin) := by unfold Statement; decide

theorem tagDone : Statement (.tagDone) := by unfold Statement; decide

theorem tagFailed : Statement (.tagFailed) := by unfold Statement; decide

theorem tagReserved (low : BitVec 3) : Statement (.tagReserved low) := by
  have := low.isLt
  change 24 + low.toNat < 2 ^ 5
  omega

end Sys2Proof.Laws.EncodeFits
end

