-- ==== Sys2Proof/Machine/HostMacro.lean ====
section
/-! DEFINITION. RUN_TO_COMPLETION, the host-side loop over the commands (46_zlib_header_and_host.md R445). It is host
software, not part of the core (00_scope.md R5(h)); it is written here over `step` alone. -/

namespace Sys2Proof.Machine

/-- A bound on the micro-steps of one STEP (R440), and two more: the step that accepts the command, the one that finds the
core idle. -/
def stepBudget (s : State) : Nat := 3 * (s.acc.length + 8 * (s.span.length - s.ipos) + 32768) + 5

/-- Steps until the core is idle: no STEP in progress and no command pending. None when `fuel` steps do not reach it. -/
def runUntilIdle : Nat → State → Option (Host.Outcome State Fault Refusal)
  | 0, _ => none
  | fuel + 1, s =>
    if s.stepping || !s.port.isEmpty then
      match step s with
      | .next t => runUntilIdle fuel t
      | .fault f => some (.fault f)
      | .refused r => some (.refused r)
    else some (.next s)

/-- One command put on the port and run to its end. -/
def issue (w : Word32) (s : State) : Option (Host.Outcome State Fault Refusal) :=
  runUntilIdle (stepBudget s) { s with port := [{ word := w, span := [] }] }

/-- READ_OUT i, i + 1, …, n bytes; none when one is refused. -/
def readOuts (s : State) (i : Nat) : Nat → Option (List Byte)
  | 0 => some []
  | n + 1 =>
    match issue (BitVec.ofNat 32 (5 + i * 65536)) s with
    | some (.next t) =>
      match t.response, readOuts s (i + 1) n with
      | .outByte b, some bs => some (b :: bs)
      | _, _ => none
    | _ => none

/-- What RUN_TO_COMPLETION returns (R445). -/
inductive RunResult where
  /-- the stream is complete -/
  | ok
  /-- an error kind: the core's, or no_data, out_of_data or invalid_parameter of the loop itself -/
  | err (code : BitVec 4)
  /-- the core met a fault of the model, or the fuel of the loop ran out -/
  | stopped
  deriving DecidableEq, Repr

/-- RUN_TO_COMPLETION(sink), at most `fuel` STEPs (R445). -/
def runToCompletion (sink : List Byte → Bool) : Nat → State → RunResult
  | 0, _ => .stopped
  | fuel + 1, s =>
    match issue 1#32 s with
    | some (.next t) =>
      if t.response = invalidStateResponse then .err (errCode .invalidState)
      else if t.status = Status.progress then runToCompletion sink fuel t
      else if t.status = Status.blockComplete then
        (if t.bfinal then .ok else runToCompletion sink fuel t)
      else if t.status = Status.outputFull then
        match readOuts t 0 t.outLen.toNat with
        | some bytes => if sink bytes then runToCompletion sink fuel t else .err (errCode .invalidParameter)
        | none => .stopped
      else if t.status = Status.needMoreInput then
        .err (errCode (if t.inTotal = 0#64 then .noData else .outOfData))
      else .err t.errKind
    | _ => .stopped

end Sys2Proof.Machine
end

