-- ==== Sys2Proof/Tests/Slice0.lean ====
section
/-! SUPPORT. Small tests: ill-formed terms, decoded words, single steps with results taken from spec/95_test_vectors.md and the
rules' examples, and for every statement with hypotheses a witness that meets them. -/

namespace Sys2Proof.Tests

open Sys2Proof.Machine

/-! Helpers. -/

def okIs (r : Except Reject Instr) (i : Instr) : Bool :=
  match r with
  | .ok j => decide (j = i)
  | .error _ => false

def errIs (r : Except Reject Instr) (e : Reject) : Bool :=
  match r with
  | .ok _ => false
  | .error f => decide (f = e)

def decodesAll (f : Format) (rows : List (Nat × Instr)) : Bool := rows.all (fun r => okIs (decode f r.1 []) r.2)

def after (o : Host.Outcome State Fault Refusal) (p : State → Bool) : Bool :=
  match o with
  | .next t => p t
  | .fault _ => false
  | .refused _ => false

def faults (o : Host.Outcome State Fault Refusal) (f : Fault) : Bool :=
  match o with
  | .next _ => false
  | .fault g => decide (g = f)
  | .refused _ => false

/-- A state with TAG = `t`, the stream bits `acc` buffered and a STEP in progress. -/
def at_ (t : BitVec 5) (acc : List Bool) : State := { State.reset with tag := t, acc := acc, stepping := true }

/-- The bits of a string of 0 and 1, first one first. -/
def bits (s : String) : List Bool := s.toList.map (· == '1')

/-- A table that gives one symbol. -/
def one (v : Nat) : Memory Entry := placeTable v

/-! Well-formedness: one ill-formed term for each check, and the forms each accepts. -/

theorem test_wf_zlibHdr_not_a_header : WellFormed (.zlibHdr 0x789D#16) = false := by decide
theorem test_wf_zlibHdr_with_fdict : WellFormed (.zlibHdr 0x78BB#16) = false := by decide
theorem test_wf_zlibFdict_without_fdict : WellFormed (.zlibFdict 0x789C#16) = false := by decide
theorem test_wf_zlibFdict_not_a_header : WellFormed (.zlibFdict 0x0820#16) = false := by decide
theorem test_wf_rawNoHdr_is_a_header : WellFormed (.rawNoHdr 0x7801#16) = false := by decide
theorem test_wf_accepts :
    WellFormed (.zlibHdr 0x789C#16) && WellFormed (.zlibFdict 0x78BB#16) && WellFormed (.rawNoHdr 0x881D#16) = true := by
  decide

/-! Decoding: a value for every constructor, written out from the encoding tables of 30_encoding.md. -/

/-- V-ZH-1, V-ZH-2, V-ZH-3, V-ZH-4, V-ZH-5, V-ZH-6, V-ZH-7. -/
theorem test_decode_zhdr16 : decodesAll .zhdr16
    [(0x789C, .zlibHdr 0x789C#16), (0x7801, .zlibHdr 0x7801#16), (0x081D, .zlibHdr 0x081D#16), (0x78BB, .zlibFdict 0x78BB#16),
     (0x789D, .rawNoHdr 0x789D#16), (0x0300, .rawNoHdr 0x0300#16), (0x881D, .rawNoHdr 0x881D#16)] = true := by decide

/-- R123: BFINAL is bit 0, BTYPE bits 2:1. -/
theorem test_decode_bhdr3 : decodesAll .bhdr3
    [(0b000, .blkStored false), (0b001, .blkStored true), (0b010, .blkFixed false), (0b011, .blkFixed true),
     (0b100, .blkDynamic false), (0b101, .blkDynamic true), (0b110, .blkReserved false), (0b111, .blkReserved true)] = true := by
  decide

/-- R124, R126. -/
theorem test_decode_fields :
    okIs (decode .storedLen 0x8000 []) (.len16 0x8000#16) && okIs (decode .storedNlen 0x7FFF []) (.nlen16 0x7FFF#16) &&
    okIs (decode .storedByte 0xA5 []) (.storedByte 0xA5#8) && okIs (decode .dynHlit 0b11110 []) (.hlit5 30#5) &&
    okIs (decode .dynHdist 0b00001 []) (.hdist5 1#5) && okIs (decode .dynHclen 0b1110 []) (.hclen4 14#4) &&
    okIs (decode .dynCll 0b110 []) (.cll3 6#3) = true := by decide

/-- R127: the symbol in bits 4:0, the extra bits above. -/
theorem test_decode_clsym : decodesAll .clsym
    ([(0b00000, .clLen0), (0b00001, .clLen1), (0b00010, .clLen2), (0b00011, .clLen3), (0b00100, .clLen4), (0b00101, .clLen5),
      (0b00110, .clLen6), (0b00111, .clLen7), (0b01000, .clLen8), (0b01001, .clLen9)] ++
     [(0b01010, .clLen10), (0b01011, .clLen11), (0b01100, .clLen12), (0b01101, .clLen13), (0b01110, .clLen14),
      (0b01111, .clLen15), (0b10_10000, .rep16 2#2), (0b101_10001, .zero17 5#3), (0b1010110_10010, .zero18 86#7)]) = true := by
  decide

/-- R128, R129: the symbol in bits 8:0, the extra bits above. -/
theorem test_decode_llsym : decodesAll .llsym
    ([(0x00, .lit 0x00#8), (0x61, .lit 0x61#8), (0xFF, .lit 0xFF#8), (0x100, .eob), (0x101, .len257), (0x102, .len258),
      (0x103, .len259), (0x104, .len260), (0x105, .len261), (0x106, .len262), (0x107, .len263), (0x108, .len264)] ++
     [(0b1_100001001, .len265 1#1), (0b1_100001010, .len266 1#1), (0b1_100001011, .len267 1#1), (0b1_100001100, .len268 1#1),
      (0b10_100001101, .len269 2#2), (0b10_100001110, .len270 2#2), (0b01_100001111, .len271 1#2),
      (0b11_100010000, .len272 3#2)] ++
     [(0b100_100010001, .len273 4#3), (0b001_100010010, .len274 1#3), (0b110_100010011, .len275 6#3),
      (0b111_100010100, .len276 7#3), (0b1000_100010101, .len277 8#4), (0b0001_100010110, .len278 1#4),
      (0b1010_100010111, .len279 10#4), (0b1111_100011000, .len280 15#4)] ++
     [(0b10000_100011001, .len281 16#5), (0b00001_100011010, .len282 1#5), (0b11110_100011011, .len283 30#5),
      (0b11111_100011100, .len284 31#5), (0x11D, .len285), (0x11E, .llInvalid286), (0x11F, .llInvalid287)]) = true := by decide

/-- R130: the symbol in bits 4:0, the extra bits above. -/
theorem test_decode_dsym : decodesAll .dsym
    ([(0, .dist0), (1, .dist1), (2, .dist2), (3, .dist3), (0b1_00100, .dist4 1#1), (0b1_00101, .dist5 1#1),
      (0b10_00110, .dist6 2#2), (0b01_00111, .dist7 1#2), (0b100_01000, .dist8 4#3), (0b001_01001, .dist9 1#3),
      (0b1000_01010, .dist10 8#4), (0b0001_01011, .dist11 1#4)] ++
     [(0b10000_01100, .dist12 16#5), (0b00001_01101, .dist13 1#5), (0b100000_01110, .dist14 32#6),
      (0b000001_01111, .dist15 1#6), (0b1000000_10000, .dist16 64#7), (0b0000001_10001, .dist17 1#7),
      (0b10000000_10010, .dist18 128#8), (0b00000001_10011, .dist19 1#8)] ++
     [(0b100000000_10100, .dist20 256#9), (0b000000001_10101, .dist21 1#9), (0b1000000000_10110, .dist22 512#10),
      (0b0000000001_10111, .dist23 1#10), (0b10000000000_11000, .dist24 1024#11), (0b00000000001_11001, .dist25 1#11),
      (0b100000000000_11010, .dist26 2048#12), (0b000000000001_11011, .dist27 1#12)] ++
     [(0b1000000000000_11100, .dist28 4096#13), (0b1111111111111_11101, .dist29 8191#13), (30, .dInvalid30),
      (31, .dInvalid31)]) = true := by decide

/-- V-CMD-1 to V-CMD-12. -/
theorem test_decode_cmd32 : decodesAll .cmd32
    [(0x00000000, .cmdOpen [] false false false false), (0x00000008, .cmdOpen [] true false false false),
     (0x00000010, .cmdOpen [] false true false false), (0x00000020, .cmdOpen [] false false true false),
     (0x00000040, .cmdOpen [] false false false true), (0x00000001, .cmdStep), (0x00000002, .cmdSupply []),
     (0x00000003, .cmdIsFinal), (0x00000004, .cmdPosition), (0x00020005, .cmdReadOut 2#16), (0x00000006, .cmdReadCrc),
     (0x00000007, .cmdReserved 0#29)] = true := by decide

/-- R135: OPEN and SUPPLY carry the span operand. -/
theorem test_decode_span :
    okIs (decode .cmd32 0x58 [0x78#8]) (.cmdOpen [0x78#8] true true false true) &&
    okIs (decode .cmd32 2 [0x63#8]) (.cmdSupply [0x63#8]) = true := by decide

/-- R32, Table T. -/
theorem test_decode_tag5 : decodesAll .tag5
    ([(0, .tagUnopened), (1, .tagZhdr), (2, .tagBhdr), (3, .tagStLen), (4, .tagStNlen), (5, .tagStCopy), (6, .tagFxBuild),
      (7, .tagDyHlit), (8, .tagDyHdist), (9, .tagDyHclen), (10, .tagDyCll), (11, .tagDyClbuild), (12, .tagDyLsym)] ++
     [(13, .tagDyLextra), (14, .tagDyBuild), (15, .tagSym), (16, .tagLenExtra), (17, .tagDsym), (18, .tagDistExtra),
      (19, .tagCopy), (20, .tagBlkEnd), (21, .tagFin), (22, .tagDone), (23, .tagFailed), (24, .tagReserved 0#3),
      (31, .tagReserved 7#3)]) = true := by decide

/-- V-CMD-13; CL symbols end at 18, LL symbols at 287 (R127, R128); a symbol's extra bits have its own width. -/
theorem test_decode_rejects :
    errIs (decode .cmd32 0x101 []) (.reservedBits 0x101) && errIs (decode .cmd32 0x80 []) (.reservedBits 0x80) &&
    errIs (decode .cmd32 0x0D []) (.reservedBits 0x0D) && errIs (decode .clsym 19 []) (.noSuchSymbol .clsym 19) &&
    errIs (decode .llsym 288 []) (.noSuchSymbol .llsym 288) && errIs (decode .bhdr3 8 []) (.tooWide .bhdr3 8) &&
    errIs (decode .dsym (0 + 32 * 1) []) (.extraBitsTooWide .dsym 0) &&
    errIs (decode .clsym (16 + 32 * 4) []) (.extraBitsTooWide .clsym 16) = true := by decide

/-! Constants and shared operations. -/

/-- 45_crc32.md R380, check values; V-CRC-2. -/
theorem test_rom_crc :
    romCrc 0#8 = 0#32 ∧ romCrc 1#8 = 0x77073096#32 ∧ romCrc 2#8 = 0xEE0E612C#32 ∧ romCrc 8#8 = 0x0EDB8832#32 ∧
    romCrc 16#8 = 0x1DB71064#32 ∧ romCrc 128#8 = 0xEDB88320#32 ∧ romCrc 255#8 = 0x2D02EF8D#32 ∧
    crcUpdate 0xFFFFFFFF#32 0x61#8 = 0x174841BC#32 := by decide

/-- V-CRC-4: CRC32 of "123456789". -/
theorem test_crc_check_value :
    ([0x31#8, 0x32#8, 0x33#8, 0x34#8, 0x35#8, 0x36#8, 0x37#8, 0x38#8, 0x39#8].foldl crcUpdate 0xFFFFFFFF#32) ^^^
      0xFFFFFFFF#32 = 0xCBF43926#32 := by decide +kernel

/-- V-RSP-1 to V-RSP-11. -/
theorem test_response_words :
    responseWord 7#3 0#4 0#2 0#16 = 0x7#32 ∧ responseWord 0#3 0#4 0#2 3#16 = 0x0#32 ∧ responseWord 1#3 0#4 0#2 0#16 = 0x1#32 ∧
    responseWord 2#3 0#4 0#2 0#16 = 0x2#32 ∧ responseWord 3#3 0#4 0#2 3#16 = 0x00030003#32 ∧
    responseWord 3#3 0#4 0#2 32768#16 = 0x80000003#32 ∧ responseWord 4#3 (errCode .invalidDistance) 0#2 0#16 = 0x54#32 ∧
    responseWord 4#3 (errCode .huffmanTableGenFailed) (huffCode .noSymbols) 0#16 = 0xC4#32 ∧
    responseWord 4#3 (errCode .huffmanTableGenFailed) (huffCode .tooManySymbols) 0#16 = 0x144#32 ∧
    responseWord 4#3 (errCode .huffmanTableGenFailed) (huffCode .incompleteTree) 0#16 = 0x1C4#32 ∧
    invalidStateResponse = .word 0x2C#32 := by decide

/-- V-HB-1, V-HB-2: a negative entry −3 is ~2, and so on. -/
theorem test_build_tables :
    build [2, 1, 3, 3] false = .table [1#16, -3#16, 0#16, -5#16, 2#16, 3#16] ∧
    build [3, 3, 3, 3, 3, 2, 4, 4] false = .table [-3#16, -5#16, 5#16, -7#16, -9#16, -11#16, 0#16, 1#16, 2#16, 3#16, 4#16,
      -13#16, 6#16, 7#16] ∧
    build [1, 1] false = .table [0#16, 1#16] ∧
    build [1, 2, 3, 3, 0] false = .table [0#16, -3#16, 1#16, -5#16, 2#16, 3#16] := by decide

/-- V-HB-5 to V-HB-9. -/
theorem test_build_corners :
    build [0, 3, 0] false = .table [1#16, 1#16] ∧ build [0, 3, 0] true = .table [1#16, 1#16] ∧ build [0, 0, 0] true = .empty ∧
    build [0, 0, 0] false = .fail .noSymbols ∧ build [1, 1, 1] false = .fail .tooManySymbols ∧
    build [1, 2] false = .fail .incompleteTree := by decide

/-- V-HW-1 to V-HW-4, over V-HB-1's table. -/
theorem test_walk :
    let t := Memory.writeBlock [] 0 [1#16, -3#16, 0#16, -5#16, 2#16, 3#16]
    followCode t 0 (bits "0") = some 1 ∧ followCode t 0 (bits "10") = some 0 ∧ followCode t 0 (bits "110") = some 2 ∧
    followCode t 0 (bits "111") = some 3 ∧ followCode t 0 (bits "11") = none := by decide

/-- V-HW-5: a missing code bit suspends and consumes nothing. -/
theorem test_walk_short :
    (match walk (Memory.writeBlock [] 0 [1#16, -3#16, 0#16, -5#16, 2#16, 3#16]) (at_ 15#5 (bits "11")) with
      | .short s => s.acc == bits "11"
      | _ => false) = true := by decide

/-- V-BR-1, V-BR-2: PEEK(0) on an empty stream; PEEK(3) of A5 3C. -/
theorem test_peek :
    (match peek 0 State.reset with
      | .got v s => v == 0 && s.acc == []
      | _ => false) = true ∧
    (match peek 3 { State.reset with span := [0xA5#8, 0x3C#8] } with
      | .got v s => v == 5 && s.acc == bits "10100101" && s.ipos == 1
      | _ => false) = true ∧
    (match peek 17 State.reset with
      | .tooMany _ => true
      | _ => false) = true := by decide

/-- V-BR-3, V-BR-4, V-BR-5: READ(3), READ(8), READ(6) short, SUPPLY, READ(6); POSITION in between. -/
theorem test_read_across_spans :
    let s := { State.reset with span := [0xA5#8, 0x3C#8] }
    let s1 := afterRead 8 (afterRead 3 s)
    let s2 := { pull 6 s1 with span := [0xFF#8], ipos := 0 }
    streamValue 3 s = 5 ∧ streamValue 8 (afterRead 3 s) = 0x94 ∧ s1.acc.length = 5 ∧ positionBytes s1 = 1#64 ∧
    positionResidual s1 = 3#3 ∧ avail s1 < 6 ∧ (pull 6 s1).acc.length = 5 ∧ streamValue 6 s2 = 39 ∧
    (afterRead 6 s2).acc.length = 7 ∧ (afterRead 6 s2).inTotal = 3#64 ∧ positionBytes (afterRead 6 s2) = 2#64 ∧
    positionResidual (afterRead 6 s2) = 1#3 := by decide

/-- V-BR-6, V-BR-7, V-BR-8. -/
theorem test_align_drop :
    (align (afterRead 3 { State.reset with span := [0x01#8, 0x00#8] })).acc = [] ∧
    align State.reset = State.reset ∧ (drop 2 { State.reset with acc := bits "101" }).acc = bits "1" := by decide

/-! One step each. -/

/-- R420: 78 9C is dropped; 78 BB is fatal; 78 9D is left. -/
theorem test_zhdr :
    after (exec .tagZhdr { at_ 1#5 [] with span := [0x78#8, 0x9C#8] }) (fun t => t.tag == 2#5 && t.acc == []) ∧
    after (exec .tagZhdr { at_ 1#5 [] with span := [0x78#8, 0xBB#8] }) (fun t => t.tag == 23#5 && t.errKind == 4#4) ∧
    after (exec .tagZhdr { at_ 1#5 [] with span := [0x78#8, 0x9D#8] }) (fun t => t.tag == 2#5 && t.acc.length == 16) := by
  decide

/-- R423: one byte suspends and stays in ACC. -/
theorem test_zhdr_one_byte :
    after (exec .tagZhdr { at_ 1#5 [] with span := [0x78#8] })
      (fun t => t.tag == 1#5 && t.acc.length == 8 && t.status == 2#3 && t.response == .word 2#32) := by decide

/-- R270: 0x05 is a final dynamic block, 0x01 a final stored one, 0x07 is illegal with BFINAL written. -/
theorem test_bhdr :
    after (exec .tagBhdr { at_ 2#5 [] with span := [0x05#8] }) (fun t => t.bfinal && t.btype == 2#2 && t.tag == 7#5) ∧
    after (exec .tagBhdr { at_ 2#5 [] with span := [0x01#8] }) (fun t => t.bfinal && t.acc == [] && t.tag == 3#5) ∧
    after (exec .tagBhdr { at_ 2#5 [] with span := [0x07#8] }) (fun t => t.bfinal && t.tag == 23#5 && t.errKind == 6#4) ∧
    faults (exec .tagBhdr { at_ 2#5 [] with vendor := true }) .vendorDialect := by decide

/-- R272, R273: 03 00 is 3; FC FF passes, 00 00 is corrupt_stream. -/
theorem test_stored_fields :
    after (exec .tagStLen { at_ 3#5 [] with span := [0x03#8, 0x00#8], nlenChecked := true })
      (fun t => t.storedLen == 3#16 && t.tag == 4#5) ∧
    after (exec .tagStLen { at_ 3#5 [] with span := [0x00#8, 0x00#8] }) (fun t => t.rem == 0#16 && t.tag == 20#5) ∧
    after (exec .tagStNlen { at_ 4#5 [] with span := [0xFC#8, 0xFF#8], storedLen := 3#16 })
      (fun t => t.rem == 3#16 && t.tag == 5#5) ∧
    after (exec .tagStNlen { at_ 4#5 [] with span := [0x00#8, 0x00#8], storedLen := 3#16 }) (fun t => t.errKind == 7#4) := by
  decide

/-- R274, R340: 'a' with REM = 3; the byte that fills the window. -/
theorem test_stored_copy :
    after (exec .tagStCopy { at_ 5#5 [] with span := [0x61#8], rem := 3#16, crc := 0xFFFFFFFF#32 })
      (fun t => Memory.read t.win 0 == some 0x61#8 && t.rem == 2#16 && t.wpos == 1#16 && t.hist == 1#16 &&
        t.crc == 0x174841BC#32 && t.tag == 5#5) ∧
    after (exec (.storedByte 0x41#8) { at_ 5#5 [] with rem := 1#16, wpos := 32767#16, hist := 32768#16 })
      (fun t => Memory.read t.win 32767 == some 0x41#8 && t.wpos == 32768#16 && t.hist == 32768#16 && t.flushPending &&
        t.status == 3#3 && t.response == .word 0x80000003#32 && t.tag == 20#5) := by decide

/-- R278, R279: the three ends of a block. -/
theorem test_block_end :
    after (exec .tagBlkEnd (at_ 20#5 [])) (fun t => t.tag == 2#5 && t.status == 1#3) ∧
    after (exec .tagBlkEnd { at_ 20#5 [] with bfinal := true, wpos := 3#16 })
      (fun t => t.tag == 21#5 && t.outLen == 3#16 && t.response == .word 0x00030003#32) ∧
    after (exec .tagBlkEnd { at_ 20#5 [] with bfinal := true }) (fun t => t.tag == 22#5 && t.status == 1#3) ∧
    after (exec .tagFin (at_ 21#5 [])) (fun t => t.tag == 22#5 && t.status == 1#3) := by decide

/-- R300, R301, V-DY-9, V-DY-10: HLIT field 30 is 287, an error under REJECT only; HDIST field 0 is 1. -/
theorem test_counts :
    after (exec (.hlit5 30#5) (at_ 7#5 [])) (fun t => t.hlit == 287#9 && t.tag == 8#5) ∧
    after (exec (.hlit5 30#5) { at_ 7#5 [] with rejectOversize := true }) (fun t => t.errKind == 9#4) ∧
    after (exec .tagDyHdist (at_ 8#5 (bits "00000"))) (fun t => t.hdist == 1#6 && t.tag == 9#5) ∧
    after (exec .tagDyHdist { at_ 8#5 (bits "01111") with rejectOversize := true }) (fun t => t.errKind == 9#4) := by decide

/-- R302, R303: field 14 is 18 and CLENS is cleared; K = 2 and v = 1 set CLENS[18]. -/
theorem test_code_length_lengths :
    after (exec (.hclen4 14#4) (at_ 9#5 [])) (fun t => t.hclen == 18#5 && Memory.read t.clens 18 == some 0#3) ∧
    after (exec (.cll3 1#3) { at_ 10#5 [] with k := 2#5, hclen := 18#5 })
      (fun t => Memory.read t.clens 18 == some 1#3 && t.k == 3#5 && t.tag == 10#5) ∧
    after (exec .tagDyCll { at_ 10#5 (bits "100") with k := 3#5, hclen := 4#5 })
      (fun t => Memory.read t.clens 0 == some 1#3 && t.tag == 11#5) := by decide

/-- R304's example: CLENS[18] = 1, CLENS[0] = CLENS[1] = 2. V-DY-1: all lengths 0. -/
theorem test_code_length_table :
    after (exec .tagDyClbuild { at_ 11#5 [] with
        clens := Memory.cells 0 ([2#3, 2#3] ++ List.replicate 16 0#3 ++ [1#3]) })
      (fun t => followCode t.tCL 0 (bits "0") == some 18 && followCode t.tCL 0 (bits "10") == some 0 &&
        followCode t.tCL 0 (bits "11") == some 1 && t.tag == 12#5) ∧
    after (exec .tagDyClbuild { at_ 11#5 [] with clens := Memory.cells 0 (List.replicate 19 0#3) })
      (fun t => t.response == .word 0xC4#32 && t.huffReason == 1#2) := by decide

/-- R305: a length, then the last one wanted; V-DY-4: symbol 16 at J = 0. -/
theorem test_code_length_symbols :
    after (exec .clLen7 { at_ 12#5 [] with j := 5#9, hlit := 257#9, hdist := 1#6 })
      (fun t => Memory.read t.lens 5 == some 7#4 && t.lastLen == 7#4 && t.j == 6#9 && t.tag == 12#5) ∧
    after (exec .clLen0 { at_ 12#5 [] with j := 257#9, hlit := 257#9, hdist := 1#6 }) (fun t => t.tag == 14#5) ∧
    after (exec .tagDyLsym { at_ 12#5 (bits "0") with tCL := one 16 }) (fun t => t.errKind == 9#4) ∧
    after (exec .tagDyLsym { at_ 12#5 (bits "0") with tCL := one 18 }) (fun t => t.cur == 18#9 && t.tag == 13#5) := by decide

/-- R306: CUR = 18 with extra bits 86 writes 97 zeros; REP16 copies LAST_LEN; a run past the counts (V-DY-5). -/
theorem test_repeats :
    after (exec .tagDyLextra { at_ 13#5 (bits "0110101") with cur := 18#9, hlit := 257#9, hdist := 1#6 })
      (fun t => Memory.read t.lens 96 == some 0#4 && Memory.read t.lens 97 == none && t.j == 97#9 && t.tag == 12#5) ∧
    after (exec (.rep16 0#2) { at_ 13#5 [] with lastLen := 3#4, j := 98#9, hlit := 257#9, hdist := 1#6 })
      (fun t => Memory.read t.lens 100 == some 3#4 && t.j == 101#9 && t.lastLen == 3#4) ∧
    after (exec (.zero18 127#7) { at_ 13#5 [] with j := 138#9, hlit := 257#9, hdist := 1#6 }) (fun t => t.errKind == 9#4) ∧
    after (exec (.zero17 7#3) { at_ 13#5 [] with j := 248#9, hlit := 257#9, hdist := 1#6 })
      (fun t => t.j == 258#9 && t.tag == 14#5) := by decide

/-- R307 in small: two LL symbols of length 1 and an empty D table; then a D table that is incomplete. -/
theorem test_dynamic_tables :
    after (exec .tagDyBuild { at_ 14#5 [] with hlit := 2#9, hdist := 1#6, lens := [(0, 1#4), (1, 1#4), (2, 0#4)] })
      (fun t => Memory.read t.tLL 0 == some 0#16 && Memory.read t.tLL 1 == some 1#16 && t.dEmpty && t.tag == 15#5) ∧
    after (exec .tagDyBuild { at_ 14#5 [] with
        hlit := 2#9, hdist := 2#6, lens := [(0, 1#4), (1, 1#4), (2, 1#4), (3, 2#4)] })
      (fun t => t.response == .word 0x1C4#32) := by decide

/-- R343: a literal, the end of the block, a length symbol, an invalid one (V-SYM-1). -/
theorem test_sym :
    after (exec .tagSym { at_ 15#5 (bits "0") with tLL := one 97 })
      (fun t => Memory.read t.win 0 == some 0x61#8 && t.tag == 15#5) ∧
    after (exec .tagSym { at_ 15#5 (bits "0") with tLL := one 256 }) (fun t => t.tag == 20#5) ∧
    after (exec .tagSym { at_ 15#5 (bits "0") with tLL := one 285 }) (fun t => t.cur == 285#9 && t.tag == 16#5) ∧
    after (exec .tagSym { at_ 15#5 (bits "0") with tLL := one 286 }) (fun t => t.errKind == 9#4) := by decide

/-- R344: CUR = 265 with extra bit 1 is 12; V-LEN-16: 284 with 31 is 258. -/
theorem test_lengths :
    after (exec .tagLenExtra { at_ 16#5 (bits "1") with cur := 265#9 }) (fun t => t.mlen == 12#9 && t.tag == 17#5) ∧
    after (exec (.len284 31#5) (at_ 16#5 [])) (fun t => t.mlen == 258#9) ∧
    after (exec .len285 (at_ 16#5 [])) (fun t => t.mlen == 258#9) := by decide

/-- R345: V-DY-7: an empty D table is an error before any bit; V-SYM-2: symbol 30. -/
theorem test_dsym :
    after (exec .tagDsym { at_ 17#5 [] with dEmpty := true }) (fun t => t.errKind == 9#4) ∧
    after (exec .tagDsym { at_ 17#5 (bits "1") with tD := one 30 }) (fun t => t.errKind == 9#4) ∧
    after (exec .tagDsym { at_ 17#5 (bits "1") with tD := one 3 }) (fun t => t.dsym == 3#5 && t.tag == 18#5) := by decide

/-- R346: after one byte DIST = 2 is invalid_distance; P5: symbol 29 with 8191 is 32768. -/
theorem test_distances :
    after (exec .dist1 { at_ 18#5 [] with hist := 1#16 }) (fun t => t.errKind == 10#4) ∧
    after (exec .dist0 { at_ 18#5 [] with hist := 1#16, mlen := 3#9 }) (fun t => t.rem == 3#16 && t.tag == 19#5) ∧
    after (exec (.dist29 8191#13) { at_ 18#5 [] with hist := 32768#16 }) (fun t => t.dist == 32768#16) ∧
    after (exec .tagDistExtra { at_ 18#5 (bits "11") with dsym := 7#5, hist := 16#16 }) (fun t => t.dist == 16#16) := by decide

/-- R347: after "abc", DIST = 3 reads 'a'; right after a full window DIST = 32768 reads WIN[0] (P5). -/
theorem test_copy :
    after (exec .tagCopy { at_ 19#5 [] with
        win := [(0, 0x61#8), (1, 0x62#8), (2, 0x63#8)], wpos := 3#16, hist := 3#16, dist := 3#16, rem := 6#16 })
      (fun t => Memory.read t.win 3 == some 0x61#8 && t.rem == 5#16 && t.tag == 19#5) ∧
    after (exec .tagCopy { at_ 19#5 [] with win := [(0, 0x07#8)], hist := 32768#16, dist := 32768#16, rem := 1#16 })
      (fun t => Memory.read t.win 0 == some 0x07#8 && t.rem == 0#16 && t.tag == 15#5) ∧
    faults (exec .tagCopy { at_ 19#5 [] with dist := 1#16 }) .winUnwritten := by decide

/-- R432: OPEN ph=1 span=[78]; V-HOST-8: from FAILED. -/
theorem test_open :
    after (exec (.cmdOpen [0x78#8] true false false true) { State.reset with tag := 23#5, hist := 9#16 })
      (fun t => t.tag == 1#5 && t.span == [0x78#8] && t.nlenChecked && t.rejectOversize && t.hist == 0#16 &&
        t.crc == 0xFFFFFFFF#32 && t.response == .word 7#32) ∧
    after (exec (.cmdOpen [] false false true false) State.reset) (fun t => t == { State.reset with response := .refused }) := by
  decide

/-- V-HOST-1, V-HOST-3; R341: a pending flush is acknowledged. -/
theorem test_step_command :
    after (exec .cmdStep State.reset) (fun t => t == { State.reset with response := .word 0x2C#32 }) ∧
    after (exec .cmdStep { State.reset with tag := 21#5, flushPending := true, wpos := 3#16, outLen := 3#16 })
      (fun t => t.wpos == 0#16 && t.outLen == 0#16 && !t.flushPending && t.stepping) ∧
    after (exec .cmdStep { State.reset with tag := 24#5 }) (fun t => t.tag == 23#5 && t.errKind == 5#4) := by decide

/-- V-HOST-5: SUPPLY over an unread span is fatal; R433: after it is used up, ACC is kept. -/
theorem test_supply :
    after (exec (.cmdSupply [0x00#8]) { State.reset with tag := 2#5, span := [0x01#8] })
      (fun t => t.tag == 23#5 && t.errKind == 3#4) ∧
    after (exec (.cmdSupply [0x63#8]) { State.reset with tag := 5#5, span := [0x62#8], ipos := 1, acc := bits "1" })
      (fun t => t.span == [0x63#8] && t.ipos == 0 && t.acc == bits "1") := by decide

/-- V-HOST-6, V-HOST-7, V-HOST-9; R437. -/
theorem test_queries :
    let s := { State.reset with tag := 21#5, flushPending := true, outLen := 1#16, wpos := 1#16, win := [(0, 0x61#8)] }
    after (exec (.cmdReadOut 0#16) s) (fun t => t.response == .outByte 0x61#8) ∧
    after (exec (.cmdReadOut 1#16) s) (fun t => t == { s with response := .refused }) ∧
    after (exec (.cmdReadOut 0#16) { s with tag := 23#5 }) (fun t => t.response == .refused) ∧
    after (exec .cmdIsFinal { State.reset with tag := 2#5 }) (fun t => t.response == .final false) ∧
    after (exec .cmdPosition { State.reset with tag := 22#5, inTotal := 6#64, acc := bits "00" })
      (fun t => t.response == .position 5#64 6#3) ∧
    after (exec .cmdReadCrc { State.reset with tag := 22#5, crc := 0xCADBBE3D#32 })
      (fun t => t.response == .crc 0x352441C2#32) := by decide

/-- V-CMD-12, V-CMD-13; R512: an idle core holds its state. -/
theorem test_port :
    after (step { State.reset with port := [⟨7#32, []⟩] }) (fun t => t == { State.reset with response := .refused }) ∧
    after (step { State.reset with port := [⟨0x101#32, []⟩] }) (fun t => t == { State.reset with response := .refused }) ∧
    after (step State.reset) (fun t => t == State.reset) ∧
    after (step { State.reset with port := [⟨0#32, [0x05#8]⟩] }) (fun t => t.tag == 2#5 && t.port == []) ∧
    after (step (at_ 20#5 [])) (fun t => t.tag == 2#5 && !t.stepping) := by decide

/-- The host's placing of a table word: STEP, TAG_SYM and a literal run as the next step (log entry 14). -/
theorem test_with_fetch_word :
    decodeTableWord 32 1 = some .cmdStep ∧ decodeTableWord 8 15 = some .tagSym ∧ decodeTableWord 16 0x61 = some (.lit 0x61#8) ∧
    after (step (State.reset.withFetchWord 16 0x61)) (fun t => Memory.read t.win 0 == some 0x61#8) ∧
    after (step (State.reset.withFetchWord 32 1)) (fun t => t.response == .word 0x2C#32) := by decide

/-- R138: MATCH 6, 3 is LL 260 and D 2 (P2); MATCH 4, 32768 is LL 258 and D 29 with 8191 (P5); ZERORUN 97. -/
theorem test_pseudo :
    matchTokens 6 3 = some (.len260, .dist2) ∧ matchTokens 4 32768 = some (.len258, .dist29 8191#13) ∧
    matchTokens 258 1 = some (.len285, .dist0) ∧ zeroRunTokens 97 = [.zero18 86#7] ∧
    zeroRunTokens 141 = [.zero18 127#7, .zero17 0#3] ∧ zeroRunTokens 2 = [.clLen0, .clLen0] := by decide

/-- R138 with R129 and R130: no length symbol for 2 or 259, no distance symbol for 0 or 32769 (log entry 21). -/
theorem test_match_outside :
    matchTokens 3 0 = none ∧ matchTokens 3 32769 = none ∧ matchTokens 2 1 = none ∧ matchTokens 0 1 = none ∧
    matchTokens 259 1 = none ∧ matchTokens 3 1 = some (.len257, .dist0) := by decide

/-! Witnesses: for every statement with hypotheses, states and operands that meet them, each clause at the ends of its range.
The name after `test_witness_` is the statement's. -/

/-- A copy in progress: one byte produced, DIST = 1, three bytes left. -/
def copying : State :=
  { at_ 19#5 [] with
    win := [(0, 0x61#8)], wpos := 1#16, hist := 1#16, dist := 1#16, rem := 3#16
    tLL := [(0, 256#16), (1, 256#16)], tD := [(0, 0#16), (1, 0#16)] }

/-- A final flush of one byte, handed over. -/
def flushed : State :=
  { State.reset with
    tag := 21#5, win := [(0, 0x61#8)], wpos := 1#16, hist := 1#16, outLen := 1#16, flushPending := true }

theorem written_one (m : Memory Byte) (v : Byte) (h : Memory.read m 0 = some v) : Written m 1 := by
  intro i hi
  obtain rfl : i = 0 := by omega
  rw [h]; rfl

theorem closed_pair (v : BitVec 16) (bound : Nat) (hm : v.msb = false) (hv : v.toNat < bound) :
    TableClosed [(0, v), (1, v)] bound := by
  refine ⟨2, le_refl 2, fun i hi => ⟨v, ?_, fun _ => hv, fun h => ?_⟩⟩
  · match i, hi with
    | 0, _ => rfl
    | 1, _ => rfl
  · rw [hm] at h; cases h

theorem memories_copying : MemoriesOk copying := by
  constructor <;> decide

theorem memories_flushed : MemoriesOk flushed := by
  constructor <;> decide

theorem phase_copying : Phase copying := by
  constructor
  case tables =>
    exact fun _ => ⟨closed_pair 256#16 288 (by decide) (by decide), fun _ => closed_pair 0#16 32 (by decide) (by decide)⟩
  case copy => exact fun _ => by decide
  all_goals exact fun h => absurd h (by decide)

theorem phase_flushed : Phase flushed := by
  constructor
  all_goals exact fun h => absurd h (by decide)

theorem test_witness_Inv_copying : Inv copying := by
  constructor
  case mem => exact memories_copying
  case phase => exact phase_copying
  case written =>
    intro _ _ _ d h1 h2
    have h2 : d ≤ 1 := h2
    obtain rfl : d = 1 := by omega
    decide
  case spanWritten => exact fun h => absurd h (by decide)
  all_goals decide

theorem test_witness_Inv_flushed : Inv flushed := by
  constructor
  case mem => exact memories_flushed
  case phase => exact phase_flushed
  case written => exact fun h => absurd rfl h
  case spanWritten => exact fun _ => written_one _ 0x61#8 rfl
  all_goals decide

theorem test_witness_StepKeepsInv : Inv copying ∧ ∃ t, step copying = .next t := ⟨test_witness_Inv_copying, _, rfl⟩

theorem test_witness_StepNeverStops : Inv copying ∧ Inv flushed := ⟨test_witness_Inv_copying, test_witness_Inv_flushed⟩

theorem test_witness_StepTerminates : Inv copying ∧ copying.stepping = true := ⟨test_witness_Inv_copying, rfl⟩

theorem test_witness_UnopenedCommands : State.reset.tag = Tag.unopened := rfl

theorem test_witness_OpenSetsRegisters :
    State.reset.stepping = false ∧ ({ State.reset with port := [⟨0x80#32, []⟩] } : State).port = ⟨0x80#32, []⟩ :: [] ∧
    (0x80#32).extractLsb' 0 3 = 0#3 ∧ (0x80#32) >>> 7 ≠ 0#32 ∧ (0x80000000#32).extractLsb' 0 3 = 0#3 ∧
    (0x80000000#32) >>> 7 ≠ 0#32 := by decide

theorem test_witness_RefusedCommands :
    (0x7#32).extractLsb' 0 3 = 7#3 ∧ ((0x20#32).extractLsb' 0 3 = 0#3 ∧ (0x20#32).getLsbD 5 = true) ∧
    ((0x80#32).extractLsb' 0 3 = 0#3 ∧ (0x80#32) >>> 7 ≠ 0#32) ∧
    ((0x0D#32).extractLsb' 0 3 = 5#3 ∧ (0x0D#32).extractLsb' 3 13 ≠ 0#13) ∧
    ((0x8005#32).extractLsb' 0 3 = 5#3 ∧ (0x8005#32).extractLsb' 3 13 ≠ 0#13) ∧
    ((0x09#32).extractLsb' 0 3 ≠ 0#3 ∧ (0x09#32).extractLsb' 0 3 ≠ 5#3 ∧ (0x09#32) >>> 3 ≠ 0#32) ∧
    ((0x80000006#32).extractLsb' 0 3 ≠ 0#3 ∧ (0x80000006#32).extractLsb' 0 3 ≠ 5#3 ∧ (0x80000006#32) >>> 3 ≠ 0#32) := by
  decide

theorem test_witness_ReadOutByte :
    (flushed.flushPending = true ∧ flushed.tag ≠ Tag.unopened ∧ flushed.tag ≠ Tag.failed ∧
      (0#16).toNat < flushed.outLen.toNat ∧ Memory.read flushed.win (0#16).toNat = some 0x61#8) ∧
    flushed.outLen.toNat ≤ (1#16).toNat ∧ State.reset.flushPending = false ∧
    ({ flushed with tag := Tag.failed } : State).tag = Tag.failed ∧ Inv flushed :=
  ⟨by decide, by decide, rfl, rfl, test_witness_Inv_flushed⟩

theorem test_witness_StepRunsDecoded :
    copying.stepping = true ∧
    (({ State.reset with port := [⟨1#32, []⟩] } : State).stepping = false ∧
      ({ State.reset with port := [⟨1#32, []⟩] } : State).port = ⟨1#32, []⟩ :: [] ∧
      okIs (decode .cmd32 (1#32).toNat []) .cmdStep = true) ∧
    State.reset.stepping = false ∧ State.reset.port = [] := by decide

theorem test_witness_FatalEntry :
    let s := { State.reset with tag := Tag.failed, port := [⟨1#32, []⟩] }
    s.tag = Tag.failed ∧ (1#32).extractLsb' 0 3 ≠ 0#3 ∧ after (step s) (fun t => t.tag == Tag.failed) = true := by decide

theorem test_witness_RetryAfterSupply :
    (pull 16 { State.reset with span := [0x5A#8] }).ipos = ({ State.reset with span := [0x5A#8] } : State).span.length ∧
    (pull 0 State.reset).ipos = State.reset.span.length := by decide

theorem test_witness_BuildFewSymbols :
    (∀ l ∈ [0, 0, 0], l = 0) ∧ (0 < 288 ∧ 288 ≤ 288 ∧ 1 ≤ 1 ∧ 1 ≤ 15) ∧ (287 < 288 ∧ 288 ≤ 288 ∧ 1 ≤ 15 ∧ 15 ≤ 15) := by
  decide

theorem test_witness_BuildCompleteness :
    2 ≤ usedCount [1, 1] ∧ 2 ≤ usedCount [1, 1, 1] ∧ 2 ≤ usedCount [1, 2] ∧ 2 ≤ usedCount [2, 1, 3, 3] := by decide

theorem test_witness_CanonicalCodeDecodes :
    build [2, 1, 3, 3] false = .table (tableEntries [2, 1, 3, 3]) ∧ 2 ≤ usedCount [2, 1, 3, 3] ∧
    ([2, 1, 3, 3] : List Nat).length ≤ 288 ∧ 3 < ([2, 1, 3, 3] : List Nat).length ∧
    1 ≤ ([2, 1, 3, 3] : List Nat).getD 3 0 ∧ ([2, 1, 3, 3] : List Nat).getD 3 0 ≤ 15 ∧
    codeBits 3 (codeValue [2, 1, 3, 3] 3) = bits "111" ∧ codeBits 1 (codeValue [2, 1, 3, 3] 1) = bits "0" := by decide

theorem test_witness_BlockHeaderStep : (at_ 2#5 []).vendor = false := rfl

theorem test_witness_VendorDialectStops : ({ State.reset with vendor := true } : State).vendor = true := rfl

theorem test_witness_StoredCopyStep :
    avail (at_ 5#5 []) < 8 ∧ (8 ≤ avail (at_ 5#5 (bits "10000110")) ∧ (at_ 5#5 (bits "10000110")).wpos.toNat < 32768) ∧
    ({ at_ 5#5 (bits "10000110") with wpos := 32767#16 } : State).wpos.toNat < 32768 := by decide

theorem test_witness_ClearLengthsStep : avail (at_ 9#5 (bits "000")) < 4 ∧ 4 ≤ avail (at_ 9#5 (bits "0000")) := by decide

theorem test_witness_CodeLengthLengthStep :
    ((at_ 10#5 (bits "00")).k.toNat < 19 ∧ avail (at_ 10#5 (bits "00")) < 3) ∧
    ({ at_ 10#5 (bits "001") with k := 18#5 } : State).k.toNat < 19 ∧ 3 ≤ avail (at_ 10#5 (bits "001")) := by decide

theorem test_witness_CodeLengthTableStep :
    (List.replicate 19 1#3).length = 19 ∧
    (∀ i, i < 19 → Memory.read (Memory.cells 0 (List.replicate 19 0#3)) i = (List.replicate 19 0#3)[i]?) ∧
    build ((List.replicate 19 0#3).map BitVec.toNat) false = .fail .noSymbols ∧
    (∀ i, i < 19 → Memory.read (Memory.cells 0 ([1#3] ++ List.replicate 18 0#3)) i = ([1#3] ++ List.replicate 18 0#3)[i]?) ∧
    build (([1#3] ++ List.replicate 18 0#3).map BitVec.toNat) false = .table [0#16, 0#16] := by decide

/-- For CodeLengthSymbolStep, SymbolStep, DistanceSymbolStep and TokensMatchMicroSteps: a one-bit code for each symbol at an
end of a clause, its bit at hand, and not yet. -/
theorem test_witness_symbol_codes :
    (∀ v ∈ [0, 15, 16, 17, 18, 29, 30, 31, 255, 256, 257, 285, 286, 287], followCode (one v) 0 (bits "0") = some v) ∧
    streamBits (at_ 15#5 (bits "01")) = bits "0" ++ bits "1" ∧ (bits "0").length ≤ 15 ∧
    streamBits (at_ 15#5 []) ++ bits "0" = bits "0" ∧ bits "0" ≠ [] := by decide

theorem test_witness_CodeLengthSymbolStep :
    (at_ 12#5 []).j.toNat < 320 ∧ ({ at_ 12#5 [] with j := 319#9 } : State).j.toNat < 320 ∧ (at_ 12#5 []).j = 0#9 ∧
    ({ at_ 12#5 [] with j := 1#9 } : State).j ≠ 0#9 := by decide

theorem test_witness_SymbolStep :
    (at_ 15#5 []).wpos.toNat < 32768 ∧ ({ at_ 15#5 [] with wpos := 32767#16 } : State).wpos.toNat < 32768 := by decide

theorem test_witness_DistanceSymbolStep :
    ({ at_ 17#5 [] with dEmpty := true } : State).dEmpty = true ∧ (at_ 17#5 []).dEmpty = false := by decide

theorem test_witness_RepeatStep :
    let c := { at_ 13#5 (bits "1111111") with hlit := 257#9, hdist := 1#6, j := 119#9 }
    let d := { at_ 13#5 (bits "1111111") with hlit := 288#9, hdist := 32#6, j := 183#9, cur := 18#9 }
    (c.hlit.toNat + c.hdist.toNat ≤ 320 ∧ ({ c with cur := 16#9 } : State).cur = 16#9 ∧
      ({ c with cur := 17#9 } : State).cur = 17#9 ∧ ({ c with cur := 18#9 } : State).cur = 18#9) ∧
    avail (at_ 13#5 (bits "1")) < 2 ∧ (7 ≤ avail d ∧ d.hlit.toNat + d.hdist.toNat < d.j.toNat + (11 + streamValue 7 d)) ∧
    (2 ≤ avail c ∧ c.j.toNat + (3 + streamValue 2 c) ≤ c.hlit.toNat + c.hdist.toNat) ∧
    (7 ≤ avail { d with j := 182#9 } ∧
      ({ d with j := 182#9 } : State).j.toNat + (11 + streamValue 7 d) ≤ d.hlit.toNat + d.hdist.toNat) := by decide

theorem test_witness_DynamicTablesStep :
    let s := { State.reset with hlit := 2#9, hdist := 2#6, lens := [(0, 1#4), (1, 1#4), (2, 1#4), (3, 2#4)] }
    ([1#4, 1#4].length = s.hlit.toNat ∧ [1#4, 2#4].length = s.hdist.toNat ∧
      (∀ i, i < 2 → Memory.read s.lens i = [1#4, 1#4][i]?) ∧ (∀ i, i < 2 → Memory.read s.lens (2 + i) = [1#4, 2#4][i]?)) ∧
    build ([0#4, 0#4].map BitVec.toNat) false = .fail .noSymbols ∧
    build ([1#4, 1#4].map BitVec.toNat) false = .table [0#16, 1#16] ∧
    build ([1#4, 2#4].map BitVec.toNat) true = .fail .incompleteTree ∧ build ([0#4].map BitVec.toNat) true = .empty ∧
    build ([0#4, 1#4].map BitVec.toNat) true = .table [1#16, 1#16] := by decide

theorem test_witness_LengthExtraStep :
    romLen ({ at_ 16#5 [] with cur := 257#9 } : State).cur.toNat = some (3, 0) ∧
    romLen ({ at_ 16#5 [] with cur := 285#9 } : State).cur.toNat = some (258, 0) ∧
    romLen ({ at_ 16#5 [] with cur := 284#9 } : State).cur.toNat = some (227, 5) := by decide

theorem test_witness_DistanceExtraStep :
    romDist ({ at_ 18#5 [] with dsym := 0#5 } : State).dsym.toNat = some (1, 0) ∧
    romDist ({ at_ 18#5 [] with dsym := 29#5 } : State).dsym.toNat = some (24577, 13) := by decide

theorem test_witness_CopyStep :
    (copying.wpos.toNat < 32768 ∧
      Memory.read copying.win ((copying.wpos.toNat + 65536 - copying.dist.toNat) % 32768) = some 0x61#8) ∧
    Memory.read ([(0, 7#8)] : List Host.Cell) ((0 + 65536 - 32768) % 32768) = some 7#8 := by decide

theorem test_witness_FieldTokens :
    (at_ 5#5 []).wpos.toNat < 32768 ∧ ({ at_ 5#5 [] with wpos := 32767#16 } : State).wpos.toNat < 32768 ∧
    (at_ 10#5 []).k.toNat < 19 ∧ ({ at_ 10#5 [] with k := 18#5 } : State).k.toNat < 19 := by decide

theorem test_witness_CodeLengthTokens :
    let s := { State.reset with hlit := 257#9, hdist := 1#6, j := 255#9 }
    (Instr.clLen0, 0#4) ∈ [(Instr.clLen0, 0#4), (.clLen15, 15#4)] ∧ State.reset.j.toNat < 320 ∧ State.reset.j = 0#9 ∧
    (s.hlit.toNat + s.hdist.toNat ≤ 320 ∧ s.j ≠ 0#9 ∧ s.j.toNat + (3 + (0#2).toNat) ≤ s.hlit.toNat + s.hdist.toNat) ∧
    (s.hlit.toNat + s.hdist.toNat < s.j.toNat + (3 + (1#3).toNat)) ∧
    (State.reset.j.toNat + (11 + (0#7).toNat) ≤ s.hlit.toNat + s.hdist.toNat) := by decide

theorem test_witness_LiteralLengthTokens :
    copying.wpos.toNat < 32768 ∧ ((Instr.len257 = .len257) ∧ 257 = 257 ∧ 3 = 3) ∧
    ∃ x : BitVec 5, Instr.len284 31#5 = .len284 x ∧ 258 = 227 + x.toNat := ⟨by decide, by decide, 31#5, rfl, by decide⟩

theorem test_witness_DistanceTokens :
    ((Instr.dist0 = .dist0) ∧ 0 = 0 ∧ 1 = 1) ∧ ∃ x : BitVec 13, Instr.dist29 8191#13 = .dist29 x ∧ 32768 = 24577 + x.toNat :=
  ⟨by decide, 8191#13, rfl, by decide⟩

theorem test_witness_TokensMatchMicroSteps :
    16 ≤ avail { at_ 1#5 [] with span := [0x78#8, 0x9C#8] } ∧ (at_ 2#5 []).vendor = false ∧ 3 ≤ avail (at_ 2#5 (bits "101")) ∧
    (({ at_ 13#5 (bits "01") with cur := 16#9, j := 1#9 } : State).j ≠ 0#9 ∧ 2 ≤ avail (at_ 13#5 (bits "01"))) ∧
    7 ≤ avail (at_ 13#5 (bits "0110101")) ∧ 5 ≤ avail (at_ 16#5 (bits "11111")) ∧
    13 ≤ avail (at_ 18#5 (bits "1111111111111")) := by decide

theorem test_witness_CopyRepeatsDistance :
    copying.wpos.toNat + 3 < 32768 ∧ 1 ≤ copying.dist.toNat ∧ copying.dist.toNat ≤ 32768 ∧
    (∀ j, j < 3 → j < copying.dist.toNat →
      (Memory.read copying.win ((copying.wpos.toNat + j + 32768 - copying.dist.toNat) % 32768)).isSome) := by decide

theorem test_witness_WindowWrites :
    after (step copying) (fun t => Memory.read t.win 1 != Memory.read copying.win 1) = true := by decide

theorem test_witness_TableWrites :
    let b := { at_ 14#5 [] with hlit := 2#9, hdist := 1#6, lens := [(0, 1#4), (1, 1#4), (2, 1#4)] }
    let c := { at_ 11#5 [] with clens := Memory.cells 0 ([1#3] ++ List.replicate 18 0#3) }
    after (step b) (fun t => t.tLL != b.tLL && t.tD != b.tD) = true ∧ after (step c) (fun t => t.tCL != c.tCL) = true ∧
    after (step (at_ 9#5 (bits "0000"))) (fun t => t.clens != []) = true ∧
    after (step { at_ 12#5 (bits "0") with tCL := one 1 }) (fun t => t.lens != []) = true := by decide

theorem test_witness_HostWrites :
    after (step { State.reset with port := [⟨0x8#32, [0x78#8]⟩] }) (fun t => t.parseHeader && t.span != []) = true ∧
    after (step { State.reset with tag := 2#5, port := [⟨0x2#32, [0x78#8]⟩] }) (fun t => t.span != []) = true := by decide

theorem test_witness_StreamConsumed :
    after (step (at_ 2#5 (bits "101"))) (fun t => t.tag == 7#5) = true ∧ (at_ 2#5 []).stepping = true ∧
    tagTerminal (at_ 2#5 []).tag = false ∧ after (step (at_ 2#5 [])) (fun t => !t.stepping && t.status == 2#3) = true := by
  decide

theorem test_witness_DecodeOfEncode :
    WellFormed (.zlibFdict 0x78BB#16) = true ∧ WellFormed (.cmdReadOut 65535#16) = true ∧ WellFormed (.dist29 8191#13) = true := by
  decide

theorem test_witness_EncodeOfDecode :
    okIs (decode .cmd32 0x78 [0x01#8]) (.cmdOpen [0x01#8] true true true true) = true ∧
    okIs (decode .dsym (29 + 32 * 8191) []) (.dist29 8191#13) = true := by decide

theorem test_witness_MatchExpands :
    (3 ≤ 3 ∧ 3 ≤ 258 ∧ 1 ≤ 1 ∧ 1 ≤ 32768) ∧ (3 ≤ 258 ∧ 258 ≤ 258 ∧ 1 ≤ 32768 ∧ 32768 ≤ 32768) ∧
    1 ≤ ({ State.reset with hist := 1#16 } : State).hist.toNat := by decide

end Sys2Proof.Tests
end

/-! PROOF. What one step runs: the micro-operation TAG selects, or the command taken off the port. -/

namespace Sys2Proof.Machine

/-- The micro-operation a STEP in progress runs (10_state.md Table T). -/
inductive Selects (s : State) : Micro → Prop where
  | zhdr (h : s.tag = Tag.zhdr) : Selects s (zhdr s)
  | bhdr (h : s.tag = Tag.bhdr) : Selects s (bhdr s)
  | stLen (h : s.tag = Tag.stLen) : Selects s (stLen s)
  | stNlen (h : s.tag = Tag.stNlen) : Selects s (stNlen s)
  | stCopy (h : s.tag = Tag.stCopy) : Selects s (stCopy s)
  | fxBuild (h : s.tag = Tag.fxBuild) : Selects s (fxBuild s)
  | dyHlit (h : s.tag = Tag.dyHlit) : Selects s (dyHlit s)
  | dyHdist (h : s.tag = Tag.dyHdist) : Selects s (dyHdist s)
  | dyHclen (h : s.tag = Tag.dyHclen) : Selects s (dyHclen s)
  | dyCll (h : s.tag = Tag.dyCll) : Selects s (dyCll s)
  | dyClbuild (h : s.tag = Tag.dyClbuild) : Selects s (dyClbuild s)
  | dyLsym (h : s.tag = Tag.dyLsym) : Selects s (dyLsym s)
  | dyLextra (h : s.tag = Tag.dyLextra) : Selects s (dyLextra s)
  | dyBuild (h : s.tag = Tag.dyBuild) : Selects s (dyBuild s)
  | sym (h : s.tag = Tag.sym) : Selects s (sym s)
  | lenExtra (h : s.tag = Tag.lenExtra) : Selects s (lenExtra s)
  | dsym (h : s.tag = Tag.dsym) : Selects s (dsym s)
  | distExtra (h : s.tag = Tag.distExtra) : Selects s (distExtra s)
  | copy (h : s.tag = Tag.copy) : Selects s (copy s)
  | blkEnd (h : s.tag = Tag.blkEnd) : Selects s (blkEnd s)
  | fin (h : s.tag = Tag.fin) : Selects s (fin s)

/-- The codes of TAG: the three terminal ones, the 21 of micro-operations, the reserved ones. -/
theorem tag_codes : ∀ t : BitVec 5, tagTerminal t = true ∨ tagReserved t = true ∨
    t = Tag.zhdr ∨ t = Tag.bhdr ∨ t = Tag.stLen ∨ t = Tag.stNlen ∨ t = Tag.stCopy ∨ t = Tag.fxBuild ∨ t = Tag.dyHlit ∨
    t = Tag.dyHdist ∨ t = Tag.dyHclen ∨ t = Tag.dyCll ∨ t = Tag.dyClbuild ∨ t = Tag.dyLsym ∨ t = Tag.dyLextra ∨
    t = Tag.dyBuild ∨ t = Tag.sym ∨ t = Tag.lenExtra ∨ t = Tag.dsym ∨ t = Tag.distExtra ∨ t = Tag.copy ∨
    t = Tag.blkEnd ∨ t = Tag.fin := by
  decide

theorem tagTerminal_iff (t : BitVec 5) :
    tagTerminal t = true ↔ t = Tag.unopened ∨ t = Tag.done ∨ t = Tag.failed := by
  simp [tagTerminal, or_assoc]

/-- A STEP on a terminal TAG answers Error(invalid_state) (R431). -/
theorem exec_terminal {t : BitVec 5} (ht : tagTerminal t = true) (s : State) :
    exec (decodeTag t) s = .next (rejectState s) := by
  rcases (tagTerminal_iff t).1 ht with rfl | rfl | rfl <;> rfl

/-- A STEP on a reserved TAG enters fatal(invalid_state) (R501). -/
theorem exec_reserved {t : BitVec 5} (ht : tagReserved t = true) (s : State) :
    exec (decodeTag t) s = .next (fatal .invalidState s) := by
  have h : tagRows[t.toNat]? = none := List.getElem?_eq_none (of_decide_eq_true ht)
  rw [decodeTag, h]
  rfl

/-- A micro-step: what it runs is decided by TAG alone (R431). -/
theorem step_of_stepping {s : State} (h : s.stepping = true) :
    (tagTerminal s.tag = true ∧ step s = .next (rejectState s)) ∨
      (tagReserved s.tag = true ∧ step s = .next (fatal .invalidState s)) ∨
      ∃ m, Selects s m ∧ step s = finish m := by
  have hstep : ∀ {t}, s.tag = t → step s = exec (decodeTag t) s := by
    rintro t rfl
    simp [step, fetch, h]
  have run : ∀ {t m}, s.tag = t → Selects s m → exec (decodeTag t) s = finish m →
      ∃ m, Selects s m ∧ step s = finish m := fun ht hm he => ⟨_, hm, (hstep ht).trans he⟩
  rcases tag_codes s.tag with ht | ht | ht
  · exact .inl ⟨ht, (hstep rfl).trans (exec_terminal ht s)⟩
  · exact .inr (.inl ⟨ht, (hstep rfl).trans (exec_reserved ht s)⟩)
  · refine .inr (.inr ?_)
    rcases ht with ht | ht | ht | ht | ht | ht | ht | ht | ht | ht | ht | ht | ht | ht | ht | ht | ht | ht | ht | ht | ht
    · exact run ht (.zhdr ht) rfl
    · exact run ht (.bhdr ht) rfl
    · exact run ht (.stLen ht) rfl
    · exact run ht (.stNlen ht) rfl
    · exact run ht (.stCopy ht) rfl
    · exact run ht (.fxBuild ht) rfl
    · exact run ht (.dyHlit ht) rfl
    · exact run ht (.dyHdist ht) rfl
    · exact run ht (.dyHclen ht) rfl
    · exact run ht (.dyCll ht) rfl
    · exact run ht (.dyClbuild ht) rfl
    · exact run ht (.dyLsym ht) rfl
    · exact run ht (.dyLextra ht) rfl
    · exact run ht (.dyBuild ht) rfl
    · exact run ht (.sym ht) rfl
    · exact run ht (.lenExtra ht) rfl
    · exact run ht (.dsym ht) rfl
    · exact run ht (.distExtra ht) rfl
    · exact run ht (.copy ht) rfl
    · exact run ht (.blkEnd ht) rfl
    · exact run ht (.fin ht) rfl

/-- The instruction of a command on the port (R135); for OPEN and SUPPLY, its CMD field too. -/
inductive IsCommand (c : Command) : Instr → Prop where
  | openStream (ph nla vnd ovr : Bool) (h : c.word.extractLsb' 0 3 = 0#3) : IsCommand c (.cmdOpen c.span ph nla vnd ovr)
  | step : IsCommand c .cmdStep
  | supply (h : c.word.extractLsb' 0 3 = 2#3) : IsCommand c (.cmdSupply c.span)
  | isFinal : IsCommand c .cmdIsFinal
  | position : IsCommand c .cmdPosition
  | readOut (index : BitVec 16) : IsCommand c (.cmdReadOut index)
  | readCrc : IsCommand c .cmdReadCrc
  | reserved (rest : BitVec 29) : IsCommand c (.cmdReserved rest)

/-- A command word that decodes gives a command. -/
theorem isCommand_of_decode {c : Command} {i : Instr} (h : decode .cmd32 c.word.toNat c.span = .ok i) : IsCommand c i := by
  have field : ∀ n : BitVec 3, (c.word.extractLsb' 0 3).toNat = n.toNat → c.word.extractLsb' 0 3 = n :=
    fun n => BitVec.eq_of_toNat_eq
  rw [decode, if_pos c.word.isLt, BitVec.ofNat_toNat, BitVec.setWidth_eq] at h
  unfold decodeCmd at h
  simp only at h
  split at h
  case h_1 hc =>
    split at h <;> cases h
    exact .openStream _ _ _ _ (field 0#3 hc)
  case h_2 => split at h <;> cases h; exact .step
  case h_3 hc => split at h <;> cases h; exact .supply (field 2#3 hc)
  case h_4 => split at h <;> cases h; exact .isFinal
  case h_5 => split at h <;> cases h; exact .position
  case h_6 => split at h <;> cases h; exact .readOut _
  case h_7 => split at h <;> cases h; exact .readCrc
  case h_8 => cases h; exact .reserved _

/-- A step with no STEP in progress: the core is idle, or takes the first command, which it refuses or runs (R430, R439). -/
theorem step_of_idle {s : State} (h : s.stepping = false) :
    step s = .next s ∨ ∃ c cs, s.port = c :: cs ∧
      (step s = .next (refuse { s with port := cs }) ∨ ∃ i, IsCommand c i ∧ step s = exec i { s with port := cs }) := by
  cases hp : s.port with
  | nil => exact .inl (by simp [step, fetch, h, hp])
  | cons c cs =>
    refine .inr ⟨c, cs, rfl, ?_⟩
    cases hd : decode .cmd32 c.word.toNat c.span with
    | error e => exact .inl (by simp [step, fetch, h, hp, hd])
    | ok i => exact .inr ⟨i, isCommand_of_decode hd, by simp [step, fetch, h, hp, hd]⟩

end Sys2Proof.Machine

/-! PROOF. The parts of the state the invariant speaks of, each with the rule of the operation that changes it: the sizes of
the memories, the built tables, the ROM rows, the last bytes of the stream in WIN. -/

namespace Sys2Proof.Machine

variable {α : Type}

/-! Memories. -/

/-- A memory in canonical form that lists only indices below `n`. -/
def Sized (m : Memory α) (n : Nat) : Prop := Memory.wf m ∧ ∀ c ∈ m, c.1 < n

theorem Sized.writeBlock {m : Memory α} {n a : Nat} {vs : List α} (h : Sized m n) (hn : a + vs.length ≤ n) :
    Sized (Memory.writeBlock m a vs) n := by
  refine ⟨wf_writeBlock m a vs h.1, fun c hc => ?_⟩
  rcases mem_writeBlock m a vs c hc with hm | hr
  · exact h.2 c hm
  · omega

theorem Sized.write {m : Memory α} {n a : Nat} {v : α} (h : Sized m n) (hn : a < n) : Sized (Memory.write m a v) n :=
  h.writeBlock hn

/-- A run written right after the written elements extends them. -/
theorem Written.writeBlock {m : Memory α} {n : Nat} (h : Written m n) (vs : List α) :
    Written (Memory.writeBlock m n vs) (n + vs.length) := by
  intro i hi
  rw [read_writeBlock]
  split
  · simp only [List.getElem?_eq_getElem (show i - n < vs.length by omega), Option.isSome_some]
  · exact h i (by omega)

theorem Written.write {m : Memory α} {n : Nat} (h : Written m n) (v : α) : Written (Memory.write m n v) (n + 1) :=
  h.writeBlock [v]

/-- A write takes no value away. -/
theorem isSome_read_write {m : Memory α} {a x : Nat} (v : α) (h : x ≠ a → (Memory.read m x).isSome) :
    (Memory.read (Memory.write m a v) x).isSome := by
  by_cases hx : x = a
  · rw [hx, read_write_same]; rfl
  · rw [read_write_other m a x v hx]; exact h hx

theorem Written.write_any {m : Memory α} {n : Nat} (h : Written m n) (a : Nat) (v : α) : Written (Memory.write m a v) n :=
  fun i hi => isSome_read_write v (fun _ => h i hi)

theorem Written.readBlock {m : Memory α} {n a k : Nat} (h : Written m n) (hk : a + k ≤ n) :
    ∃ vs, Memory.readBlock m a k = some vs ∧ vs.length = k :=
  readBlock_eq_some m a k (fun i hi => h (a + i) (by omega))

/-! Tables. -/

theorem TableClosed.mono {t : Memory Entry} {m n : Nat} (h : TableClosed t m) (hmn : m ≤ n) : TableClosed t n := by
  obtain ⟨k, hk, hc⟩ := h
  refine ⟨k, hk, fun i hi => ?_⟩
  obtain ⟨e, he, hleaf, hptr⟩ := hc i hi
  exact ⟨e, he, fun hm => lt_of_lt_of_le (hleaf hm) hmn, hptr⟩

/-- How many entries BUILD writes: two for one symbol, else two less than twice the used symbols (R233, R237). -/
theorem build_length {ls : List Nat} {allowEmpty : Bool} {es : List Entry} (h : build ls allowEmpty = .table es) :
    es.length ≤ 2 * (max 2 ls.length) - 2 := by
  have hle := usedCount_le ls
  rw [build] at h
  split at h
  · split at h <;> cases h
  · split at h
    · cases h
      simp only [List.length_cons, List.length_nil]
      omega
    · split at h
      · cases h
      · split at h
        · cases h
        next ho hc =>
          cases h
          have hlen := tableEntries_length ls (Bool.eq_false_iff.2 ho) (Bool.eq_false_iff.2 hc)
          omega

/-- A build that succeeds leaves a table within the size its alphabet needs, whatever it held before (R40). -/
theorem Sized.builtTable {t : Memory Entry} {n : Nat} (h : Sized t n) (ls : List Nat) (allowEmpty : Bool)
    (hn : 2 * (max 2 ls.length) - 2 ≤ n) : Sized (builtTable (build ls allowEmpty) t) n := by
  cases hb : build ls allowEmpty with
  | empty => exact h
  | fail r => exact h
  | table es =>
    have := build_length hb
    exact h.writeBlock (by omega)

/-- A build that neither fails nor is empty leaves a closed table (R237). -/
theorem builtTable_closed {ls : List Nat} {allowEmpty : Bool} {n : Nat} (t : Memory Entry)
    (hf : ∀ r, build ls allowEmpty ≠ .fail r) (he : build ls allowEmpty ≠ .empty) (hl : ls.length ≤ n) (hn : n ≤ 288) :
    TableClosed (builtTable (build ls allowEmpty) t) n := by
  cases hb : build ls allowEmpty with
  | empty => exact absurd hb he
  | fail r => exact absurd hb (hf r)
  | table es => exact (build_closed ls allowEmpty es t (by omega) hb).mono hl

/-- Where an empty alphabet is not allowed, no build is empty (R232). -/
theorem build_false_ne_empty (ls : List Nat) : build ls false ≠ .empty := fun h => Bool.noConfusion (build_empty h)

theorem romFixedLL_length : romFixedLL.length = 288 := by
  simp only [romFixedLL, List.length_append, List.length_replicate]

theorem romFixedD_length : romFixedD.length = 32 := List.length_replicate

/-- The fixed distance code has symbols (R277). -/
theorem build_romFixedD_ne_empty : build romFixedD true ≠ .empty := by
  have h0 : usedCount romFixedD ≠ 0 := by decide
  rw [build, if_neg h0]
  repeat' split
  all_goals exact nofun

/-! ROM rows. -/

/-- The row of ROM_LEN for a length symbol: every length it gives is from 3 to 258 (R129). -/
theorem romLen_row {v : Nat} (h1 : 257 ≤ v) (h2 : v ≤ 285) :
    ∃ b e, romLen v = some (b, e) ∧ e ≤ 5 ∧ 3 ≤ b ∧ b + 2 ^ e ≤ 259 := by
  have rows : ∀ i : Fin 29, ∃ r, romLenRows[i.val]? = some r ∧ r.2 ≤ 5 ∧ 3 ≤ r.1 ∧ r.1 + 2 ^ r.2 ≤ 259 := by decide
  obtain ⟨⟨b, e⟩, hr, hb⟩ := rows ⟨v - 257, by omega⟩
  exact ⟨b, e, by rw [romLen, if_neg (by omega)]; exact hr, hb⟩

/-- The row of ROM_DIST for a distance symbol: every distance it gives is from 1 to 32768 (R130). -/
theorem romDist_row {v : Nat} (h : v < 30) :
    ∃ b e, romDist v = some (b, e) ∧ e ≤ 13 ∧ 1 ≤ b ∧ b + 2 ^ e ≤ 32769 := by
  have rows : ∀ i : Fin 30, ∃ r, romDist i.val = some r ∧ r.2 ≤ 13 ∧ 1 ≤ r.1 ∧ r.1 + 2 ^ r.2 ≤ 32769 := by decide
  obtain ⟨⟨b, e⟩, hr, hb⟩ := rows ⟨v, h⟩
  exact ⟨b, e, hr, hb⟩

/-- The row of ROM_CLORDER for K short of 19 (R308). -/
theorem romClOrder_row {k : Nat} (h : k < 19) : ∃ n, romClOrder k = some n ∧ n < 19 := by
  have rows : ∀ i : Fin 19, ∃ n, romClOrder i.val = some n ∧ n < 19 := by decide
  exact rows ⟨k, h⟩

/-! The window. -/

/-- The last HIST bytes of the stream are in WIN (R342). -/
def HistWritten (s : State) : Prop := ∀ d, 1 ≤ d → d ≤ s.hist.toNat → (Memory.read s.win (backIndex s d)).isSome

theorem histBump_toNat {h : BitVec 16} (hh : h.toNat ≤ 32768) : (histBump h).toNat = min (h.toNat + 1) 32768 := by
  rw [histBump, BitVec.toNat_ofNat]
  exact Nat.mod_eq_of_lt (by omega)

theorem wpos_succ_toNat {s : State} (h : s.wpos.toNat < 32768) : (s.wpos + 1#16).toNat = s.wpos.toNat + 1 := by
  rw [BitVec.toNat_add_of_lt (by simpa using by omega)]
  rfl

/-- A byte put keeps the last HIST bytes in WIN: the new one is at distance 1, the others one further (R340). -/
theorem HistWritten.putByte {s : State} (h : HistWritten s) (hw : s.wpos.toNat < 32768) (hh : s.hist.toNat ≤ 32768)
    (v : Byte) : HistWritten (putByte v s) := by
  intro d h1 hd
  rw [putByte_hist, histBump_toNat hh] at hd
  have hidx : backIndex (Machine.putByte v s) d = (s.wpos.toNat + 1 + 32768 - d) % 32768 := by
    rw [backIndex, putByte_wpos, wpos_succ_toNat hw]
  refine isSome_read_write v (fun hne => ?_)
  have hd1 : d ≠ 1 := by
    rintro rfl
    rw [hidx] at hne
    omega
  have hprev : backIndex (Machine.putByte v s) d = backIndex s (d - 1) := by
    rw [hidx, backIndex]
    congr 1
    show _ = _ + 32768 - _
    omega
  rw [hprev]
  exact h (d - 1) (by omega) (by omega)

/-- The bytes of the window so far are written. -/
theorem HistWritten.written_wpos {s : State} (h : HistWritten s) (hw : s.wpos.toNat < 32768)
    (hh : s.wpos.toNat ≤ s.hist.toNat) : Written s.win s.wpos.toNat := by
  intro i hi
  have hidx : backIndex s (s.wpos.toNat - i) = i := by
    show (_ + 32768 - _) % 32768 = _
    omega
  have := h (s.wpos.toNat - i) (by omega) (by omega)
  rwa [hidx] at this

/-- COPY's source index is that of the byte DIST before the next one (R342). -/
theorem winIndex_eq_backIndex (s : State) (h : s.dist.toNat ≤ 32768) : winIndex s.wpos s.dist = backIndex s s.dist.toNat := by
  rw [winIndex, backIndex, BitVec.toNat_sub]
  show _ % 32768 = (_ + 32768 - _) % 32768
  omega

end Sys2Proof.Machine

/-! PROOF. StepKeepsInv and StepNeverStops. The two are proved together, as one property of each micro-operation and of each
command: it does not stop, and what it leaves meets the invariant. -/

namespace Sys2Proof.Machine

/-! The invariant during a STEP, split into what holds whatever TAG is and what TAG's phase needs. -/

/-- What holds of the registers and memories while micro-operations run, before the stream's end. -/
structure Running (s : State) : Prop where
  vendor : s.vendor = false
  nbits : s.acc.length ≤ 23
  ipos : s.ipos ≤ s.span.length
  hist : s.hist.toNat ≤ 32768
  wpos : s.wpos.toNat ≤ s.hist.toNat
  room : s.wpos.toNat < 32768
  acked : s.flushPending = false
  status : s.status ≠ 5#3 ∧ s.status ≠ 6#3
  errKind : s.errKind.toNat ≤ 10
  written : HistWritten s
  win : Sized s.win 32768
  tLL : Sized s.tLL 574
  tD : Sized s.tD 62
  tCL : Sized s.tCL 36
  clens : Sized s.clens 19
  lens : Sized s.lens 320

/-- What `Phase` asks of a state whose TAG has the given code (Table T). -/
def Needs (s : State) : Nat → Prop
  | 5 => 1 ≤ s.rem.toNat
  | 8 => 257 ≤ s.hlit.toNat ∧ s.hlit.toNat ≤ 288
  | 9 => CountsOk s
  | 10 => CountsOk s ∧ Written s.clens 19 ∧ s.k.toNat < s.hclen.toNat ∧ s.hclen.toNat ≤ 19
  | 11 => CountsOk s ∧ Written s.clens 19
  | 12 => CountsOk s ∧ TableClosed s.tCL 19 ∧ s.j.toNat < lensWanted s ∧ Written s.lens s.j.toNat
  | 13 => (CountsOk s ∧ TableClosed s.tCL 19 ∧ s.j.toNat < lensWanted s ∧ Written s.lens s.j.toNat) ∧
      16 ≤ s.cur.toNat ∧ s.cur.toNat ≤ 18 ∧ (s.cur = 16#9 → s.j ≠ 0#9)
  | 14 => CountsOk s ∧ s.j.toNat = lensWanted s ∧ Written s.lens s.j.toNat
  | 15 => TablesOk s
  | 16 => TablesOk s ∧ 257 ≤ s.cur.toNat ∧ s.cur.toNat ≤ 285
  | 17 => TablesOk s ∧ MlenOk s
  | 18 => TablesOk s ∧ MlenOk s ∧ s.dsym.toNat < 30
  | 19 => TablesOk s ∧ 1 ≤ s.rem.toNat ∧ s.rem.toNat ≤ 258 ∧ 1 ≤ s.dist.toNat ∧ s.dist.toNat ≤ s.hist.toNat
  | _ => True

theorem phase_of_needs {s : State} (h : Needs s s.tag.toNat) : Phase s := by
  have at_ : ∀ {t : BitVec 5}, s.tag = t → Needs s t.toNat := fun ht => ht ▸ h
  exact {
    stCopy := at_
    hlit := at_
    counts := by
      rintro (ht | ht | ht | ht | ht | ht)
      · exact at_ ht
      · exact And.left (at_ ht)
      · exact And.left (at_ ht)
      · exact And.left (at_ ht)
      · exact And.left (And.left (at_ ht))
      · exact And.left (at_ ht)
    cll := fun ht => And.right (at_ ht)
    clbuild := fun ht => And.right (at_ ht)
    lsym := by
      rintro (ht | ht)
      · exact And.right (at_ ht)
      · exact And.right (And.left (at_ ht))
    lextra := fun ht => And.right (at_ ht)
    build := fun ht => And.right (at_ ht)
    tables := by
      rintro (ht | ht | ht | ht | ht)
      · exact at_ ht
      · exact And.left (at_ ht)
      · exact And.left (at_ ht)
      · exact And.left (at_ ht)
      · exact And.left (at_ ht)
    lenExtra := fun ht => And.right (at_ ht)
    mlen := by
      rintro (ht | ht)
      · exact And.right (at_ ht)
      · exact And.left (And.right (at_ ht))
    distExtra := fun ht => And.right (And.right (at_ ht))
    copy := fun ht => And.right (at_ ht) }

/-- TAG is a code that a rule writes (R32), and its phase has what it needs. -/
structure Ready (s : State) : Prop where
  tag : s.tag.toNat ≤ 23
  phase : Phase s

theorem ready_of_tag {s : State} (t : BitVec 5) (ht : s.tag = t) (hn : Needs s t.toNat) (h23 : t.toNat ≤ 23 := by decide) :
    Ready s := by
  subst ht
  exact ⟨h23, phase_of_needs hn⟩

theorem Inv.ready {s : State} (h : Inv s) : Ready s := ⟨h.tag, h.phase⟩

theorem Running.inv {s : State} (h : Running s) (hp : Ready s) : Inv s where
  tag := hp.tag
  vendor := h.vendor
  nbits := h.nbits
  ipos := h.ipos
  hist := h.hist
  wpos := h.wpos
  status := h.status
  errKind := h.errKind
  room := .inl h.room
  acked := fun _ => h.acked
  full := fun hf => by rw [h.acked] at hf; cases hf
  span := fun hf => by rw [h.acked] at hf; cases hf
  spanWritten := fun hf => by rw [h.acked] at hf; cases hf
  written := fun _ _ _ => h.written
  mem := ⟨h.win.1, h.tLL.1, h.tD.1, h.tCL.1, h.clens.1, h.lens.1, h.win.2, h.tLL.2, h.tD.2, h.tCL.2, h.clens.2, h.lens.2⟩
  phase := hp.phase

/-- A STEP in progress runs in such a state until TAG is that of the stream's end. -/
theorem Inv.running {s : State} (h : Inv s) (hs : s.stepping = true) (h1 : s.tag ≠ Tag.fin)
    (h2 : s.tag ≠ Tag.done) (h3 : s.tag ≠ Tag.failed) : Running s where
  vendor := h.vendor
  nbits := h.nbits
  ipos := h.ipos
  hist := h.hist
  wpos := h.wpos
  room := h.room.resolve_right (by simp [h.acked hs])
  acked := h.acked hs
  status := h.status
  errKind := h.errKind
  written := h.written h1 h2 h3
  win := ⟨h.mem.win, h.mem.winBound⟩
  tLL := ⟨h.mem.tLL, h.mem.tLLBound⟩
  tD := ⟨h.mem.tD, h.mem.tDBound⟩
  tCL := ⟨h.mem.tCL, h.mem.tCLBound⟩
  clens := ⟨h.mem.clens, h.mem.clensBound⟩
  lens := ⟨h.mem.lens, h.mem.lensBound⟩

/-! What the bit reader leaves. -/

theorem Running.pull {s : State} (h : Running s) {n : Nat} (hn : n ≤ 16) : Running (pull n s) :=
  { h with
    nbits := by have := pull_acc_length_le n s; have := h.nbits; omega
    ipos := pull_ipos_le n s h.ipos }

theorem Ready.pull {s : State} (h : Ready s) (n : Nat) : Ready (pull n s) := ⟨h.tag, { h.phase with }⟩

theorem Running.drop {s : State} (h : Running s) (n : Nat) : Running (drop n s) :=
  { h with nbits := by have := h.nbits; rw [drop_acc, List.length_drop]; omega }

theorem Running.afterRead {s : State} (h : Running s) {n : Nat} (hn : n ≤ 16) : Running (afterRead n s) :=
  (h.pull hn).drop n

/-! The ends of a micro-step. -/

/-- A micro-step that does not stop, and after which the invariant holds. -/
def Sound (m : Micro) : Prop := ∃ t, finish m = .next t ∧ Inv t

theorem status_progress_legal : Status.progress ≠ 5#3 ∧ Status.progress ≠ 6#3 := by decide

theorem status_error_legal : Status.error ≠ 5#3 ∧ Status.error ≠ 6#3 := by decide

theorem eventStatus_legal (e : Event) : eventStatus e ≠ 5#3 ∧ eventStatus e ≠ 6#3 := by cases e <;> decide

theorem errCode_le (k : ErrKind) : (errCode k).toNat ≤ 10 := by cases k <;> decide

theorem sound_cont {s : State} (h : Running s) (hp : Ready s) : Sound (.cont s) := by
  have hst : (afterContinue s).status ≠ 5#3 ∧ (afterContinue s).status ≠ 6#3 := by
    rw [afterContinue_status]
    cases Config.yieldDraw s.draws
    · exact h.status
    · exact status_progress_legal
  exact ⟨_, rfl, Running.inv { h with status := hst } ⟨hp.tag, { hp.phase with }⟩⟩

/-- A STEP that ends before the stream's end with no flush. -/
theorem Running.endStep {s : State} (h : Running s) (hp : Ready s) {st : BitVec 3} (hst : st ≠ 5#3 ∧ st ≠ 6#3) :
    Inv (endStep st s) :=
  Running.inv { h with status := hst } ⟨hp.tag, { hp.phase with }⟩

theorem sound_event {s : State} (h : Running s) (hp : Ready s) (e : Event) : Sound (.event e s) :=
  ⟨_, rfl, h.endStep hp (eventStatus_legal e)⟩

theorem sound_suspend {s : State} (h : Running s) (hp : Ready s) : Sound (.suspend s) :=
  ⟨_, rfl, h.endStep hp (by decide)⟩

/-- A fatal error needs nothing of TAG's phase (R503). -/
theorem sound_raise {s : State} (h : Running s) (k : ErrKind) : Sound (.raise k s) :=
  ⟨_, rfl, Running.inv { h with status := status_error_legal, errKind := errCode_le k } (ready_of_tag Tag.failed rfl trivial)⟩

/-! The bit reader, the symbol walker and BUILD within a micro-step. -/

theorem sound_peek {s : State} (h : Running s) (hp : Ready s) {n : Nat} (hn : n ≤ 16) {go : Nat → State → Micro}
    (hgo : Running (pull n s) → Sound (go (streamValue n s) (pull n s))) : Sound (withPeek n s go) := by
  rw [withPeek_eq n hn]
  split
  · exact sound_suspend (h.pull hn) (hp.pull n)
  · exact hgo (h.pull hn)

theorem sound_read {s : State} (h : Running s) (hp : Ready s) {n : Nat} (hn : n ≤ 16) {go : Nat → State → Micro}
    (hgo : ∀ v, v < 2 ^ n → Running (afterRead n s) → Sound (go v (afterRead n s))) : Sound (withRead n s go) := by
  rw [withRead_eq n hn]
  split
  · exact sound_suspend (h.pull hn) (hp.pull n)
  · exact hgo _ (streamValue_lt n s (by omega)) (h.afterRead hn)

/-- On a closed table DECODE meets written entries only (R237). -/
theorem sound_symbol {s : State} (h : Running s) (hp : Ready s) {t : Memory Entry} {bound : Nat} (hc : TableClosed t bound)
    {go : Nat → State → Micro}
    (hgo : ∀ v k, v < bound → Running (afterRead k s) → Sound (go v (afterRead k s))) : Sound (withSymbol t s go) := by
  obtain ⟨hhole, hbound⟩ := walk_closed t bound hc s
  rcases walk_cases t s with ⟨k, e, i, h1, h15, hav, hrd, hm, hw⟩ | ⟨k, h1, h15, hav, hw⟩ | ⟨k, h1, h15, hw⟩ | hw
  · rw [withSymbol, hw]
    exact hgo _ k (hbound _ _ hw) (h.afterRead (by omega))
  · rw [withSymbol, hw]
    exact sound_suspend (h.pull (by omega)) (hp.pull k)
  · rw [withSymbol, hw]
    exact sound_raise (h.pull (by omega)) _
  · exact absurd hw hhole

theorem sound_build {s : State} (h : Running s) {b : Built} {go : State → Micro}
    (hgo : (∀ r, b ≠ .fail r) → Sound (go s)) : Sound (withBuild b s go) := by
  rcases withBuild_cases b s go with ⟨r, -, hw⟩ | ⟨hb, hw⟩
  · rw [hw]
    have h1 : Running { s with huffReason := huffCode r } := { h with }
    exact sound_raise h1 _
  · rw [hw]
    exact hgo hb

/-! PUT. -/

/-- A byte put leaves what the phase of TAG needs: DIST is at most HIST still (R47(e)). -/
theorem Phase.putByte {s : State} (hp : Phase s) (hh : s.hist.toNat ≤ 32768) (v : Byte) : Phase (putByte v s) :=
  { hp with
    copy := fun ht => by
      obtain ⟨h1, h2, h3, h4⟩ := hp.copy ht
      refine ⟨h1, h2, h3, ?_⟩
      rw [putByte_hist, histBump_toNat hh]
      exact le_min (by simp only [putByte_dist]; omega) (by simp only [putByte_dist]; omega) }

theorem sound_put {s : State} (h : Running s) (hp : Ready s) (v : Byte) : Sound (put v s) := by
  have hh := h.hist
  have hw := h.wpos
  have hroom := h.room
  have hwpos := wpos_succ_toNat hroom
  have hhist := histBump_toNat hh
  have hsize : Sized (putByte v s).win 32768 := h.win.write hroom
  have hle : (putByte v s).wpos.toNat ≤ (putByte v s).hist.toNat := by
    rw [putByte_wpos, putByte_hist, hwpos, hhist]
    omega
  have hle2 : (putByte v s).hist.toNat ≤ 32768 := by
    rw [putByte_hist, hhist]
    omega
  have hphase := hp.phase.putByte hh v
  have hwritten := h.written.putByte hroom hh v
  rw [put_room v s hroom]
  split
  next hfull =>
    have h32768 : (putByte v s).wpos = 32768#16 := BitVec.eq_of_toNat_eq (hwpos.trans hfull)
    have hall : Written (putByte v s).win 32768 := by
      have := (h.written.written_wpos hroom hw).write v
      rwa [hfull] at this
    have hi := h.inv hp
    exact ⟨_, rfl, { hi with
      hist := hle2
      wpos := hle
      status := eventStatus_legal .outputFull
      room := .inr rfl
      acked := nofun
      full := fun _ => .inl h32768
      span := fun _ => h32768.symm
      spanWritten := fun _ => hall
      written := fun _ _ _ => hwritten
      mem := { hi.mem with win := hsize.1, winBound := hsize.2 }
      phase := { hphase with } }⟩
  next hpart =>
    have hroom' : (putByte v s).wpos.toNat < 32768 := by
      rw [putByte_wpos, hwpos]
      omega
    exact sound_cont { h with hist := hle2, wpos := hle, room := hroom', written := hwritten, win := hsize }
      ⟨hp.tag, hphase⟩

end Sys2Proof.Machine

/-! PROOF. Every micro-operation, run from a state with the invariant, does not stop and leaves the invariant. -/

namespace Sys2Proof.Machine

/-! The zlib-style header and the block header (R420, R270). -/

theorem sound_zhdr {s : State} (h : Running s) (hp : Ready s) : Sound (zhdr s) := by
  refine sound_peek h hp (by decide) fun h1 => ?_
  unfold zhdrAct
  split
  · split
    · exact sound_raise h1 _
    · refine sound_cont ?_ (ready_of_tag Tag.bhdr rfl trivial)
      exact { h1.drop 16 with }
  · refine sound_cont ?_ (ready_of_tag Tag.bhdr rfl trivial)
    exact { h1 with }

theorem sound_bhdrAct {s : State} (h : Running s) (v : BitVec 3) : Sound (bhdrAct v s) := by
  unfold bhdrAct
  split
  · have h1 : Running (setHeader (v.getLsbD 0) 0#2 s) := { h with }
    refine sound_cont ?_ (ready_of_tag Tag.stLen rfl trivial)
    exact { h1.drop _ with }
  · refine sound_cont ?_ (ready_of_tag Tag.fxBuild rfl trivial)
    exact { h with }
  · refine sound_cont ?_ (ready_of_tag Tag.dyHlit rfl trivial)
    exact { h with }
  · have h1 : Running (setHeader (v.getLsbD 0) 3#2 s) := { h with }
    exact sound_raise h1 _

theorem sound_bhdr {s : State} (h : Running s) (hp : Ready s) : Sound (bhdr s) := by
  rw [bhdr, h.vendor, if_neg Bool.false_ne_true]
  exact sound_read h hp (by decide) fun v _ h1 => sound_bhdrAct h1 _

/-! Stored blocks (R272 to R275). -/

/-- An empty stored block goes to its end; any other has a byte to copy (R275). -/
theorem sound_beginStored {s : State} (h : Running s) : Sound (.cont (beginStored s)) := by
  refine sound_cont { h with } ?_
  by_cases h0 : s.storedLen = 0#16
  · exact ready_of_tag Tag.blkEnd (if_pos h0) trivial
  · refine ready_of_tag Tag.stCopy (if_neg h0) ?_
    have : s.storedLen.toNat ≠ 0 := fun hn => h0 (BitVec.eq_of_toNat_eq hn)
    exact Nat.one_le_iff_ne_zero.2 this

theorem sound_stLen {s : State} (h : Running s) (hp : Ready s) : Sound (stLen s) := by
  refine sound_read h hp (by decide) fun v _ h1 => ?_
  unfold lenAct
  split
  · refine sound_cont ?_ (ready_of_tag Tag.stNlen rfl trivial)
    exact { h1 with }
  · refine sound_beginStored ?_
    exact { h1 with }

theorem sound_stNlen {s : State} (h : Running s) (hp : Ready s) : Sound (stNlen s) := by
  refine sound_read h hp (by decide) fun v _ h1 => ?_
  unfold nlenAct
  split
  · exact sound_beginStored h1
  · exact sound_raise h1 _

/-- A count that is not used up has a byte left. -/
theorem rem_pred {r : BitVec 16} (h : 1 ≤ r.toNat) (hn : r - 1#16 ≠ 0#16) :
    1 ≤ (r - 1#16).toNat ∧ (r - 1#16).toNat ≤ r.toNat := by
  have h0 : (r - 1#16).toNat ≠ 0 := fun hz => hn (BitVec.eq_of_toNat_eq hz)
  have h1 : (r - 1#16).toNat = r.toNat - 1 := BitVec.toNat_sub_of_le (by rw [BitVec.le_def]; exact h)
  omega

theorem sound_stCopy {s : State} (h : Running s) (hp : Ready s) (ht : s.tag = Tag.stCopy) : Sound (stCopy s) := by
  refine sound_read h hp (by decide) fun v _ h1 => ?_
  have h2 : Running (countDown Tag.blkEnd (afterRead 8 s)) := { h1 with }
  refine sound_put h2 ?_ _
  by_cases h0 : s.rem - 1#16 = 0#16
  · exact ready_of_tag Tag.blkEnd (if_pos h0) trivial
  · exact ready_of_tag Tag.stCopy ((if_neg h0).trans ht) (rem_pred (hp.phase.stCopy ht) h0).1

/-! The tables of the symbol phase (R276, R307). -/

/-- The LL build, then the D build: the tables they leave are those the symbol phase needs (R237, R40). -/
theorem sound_symbolTables {s : State} (h : Running s) {ll dl : List Nat} (hll : ll.length ≤ 288) (hdl : dl.length ≤ 32)
    {e : Bool} (he : e = false → build dl true ≠ .empty) :
    Sound (withBuild (build ll false) s fun s1 =>
      withBuild (build dl true) { s1 with tLL := builtTable (build ll false) s1.tLL } fun s2 =>
        .cont { s2 with tD := builtTable (build dl true) s2.tD, dEmpty := e, tag := Tag.sym }) := by
  refine sound_build h fun hbl => ?_
  have h1 : Running { s with tLL := builtTable (build ll false) s.tLL } :=
    { h with tLL := h.tLL.builtTable ll false (by omega) }
  refine sound_build h1 fun hbd => ?_
  refine sound_cont ?_ (ready_of_tag Tag.sym rfl ?_)
  · exact { h1 with tD := h.tD.builtTable dl true (by omega) }
  · exact ⟨builtTable_closed s.tLL hbl (build_false_ne_empty ll) hll (by decide),
      fun hd => builtTable_closed s.tD hbd (he hd) hdl (by decide)⟩

theorem sound_fxBuild {s : State} (h : Running s) : Sound (fxBuild s) :=
  sound_symbolTables h romFixedLL_length.le romFixedD_length.le fun _ => build_romFixedD_ne_empty

/-! The end of a block and of the stream (R278, R279). -/

theorem sound_blkEnd {s : State} (h : Running s) : Sound (blkEnd s) := by
  unfold blkEnd
  split
  · split
    · refine sound_event ?_ (ready_of_tag Tag.done rfl trivial) _
      exact { h with }
    · have h1 : Running { s with tag := Tag.fin } := { h with }
      have hi := h1.inv (ready_of_tag Tag.fin rfl trivial)
      exact ⟨_, rfl, { hi with
        status := eventStatus_legal .outputFull
        room := .inl h.room
        acked := nofun
        full := fun _ => .inr (.inl rfl)
        span := fun _ => rfl
        spanWritten := fun _ => h.written.written_wpos h.room h.wpos
        mem := { hi.mem with }
        phase := { hi.phase with } }⟩
  · refine sound_event ?_ (ready_of_tag Tag.bhdr rfl trivial) _
    exact { h with }

theorem sound_fin {s : State} (h : Inv s) (hs : s.stepping = true) : Sound (fin s) := by
  have hf : ¬ s.flushPending = true := by simp [h.acked hs]
  have hp : Ready (endStep Status.blockComplete { s with tag := Tag.done }) := ready_of_tag Tag.done rfl trivial
  exact ⟨_, rfl, { h with
    tag := hp.tag
    status := eventStatus_legal .blockComplete
    acked := nofun
    full := fun hc => absurd hc hf
    written := fun _ hd => absurd rfl hd
    mem := { h.mem with }
    phase := hp.phase }⟩

/-! The dynamic header's counts and code-length lengths (R300 to R303). -/

theorem hlit_toNat (v : BitVec 5) : (v.setWidth 9 + 257#9).toNat = v.toNat + 257 := by
  have := v.isLt
  simp only [BitVec.toNat_add, BitVec.toNat_setWidth, BitVec.toNat_ofNat]
  omega

theorem hdist_toNat (v : BitVec 5) : (v.setWidth 6 + 1#6).toNat = v.toNat + 1 := by
  have := v.isLt
  simp only [BitVec.toNat_add, BitVec.toNat_setWidth, BitVec.toNat_ofNat]
  omega

theorem hclen_toNat (v : BitVec 4) : (v.setWidth 5 + 4#5).toNat = v.toNat + 4 := by
  have := v.isLt
  simp only [BitVec.toNat_add, BitVec.toNat_setWidth, BitVec.toNat_ofNat]
  omega

theorem sound_dyHlit {s : State} (h : Running s) (hp : Ready s) : Sound (dyHlit s) := by
  refine sound_read h hp (by decide) fun v _ h1 => ?_
  unfold hlitAct
  split
  · have h2 : Running { afterRead 5 s with hlit := (BitVec.ofNat 5 v).setWidth 9 + 257#9 } := { h1 with }
    exact sound_raise h2 _
  · refine sound_cont ?_ (ready_of_tag Tag.dyHdist rfl ?_)
    · exact { h1 with }
    · have hv := hlit_toNat (BitVec.ofNat 5 v)
      have := (BitVec.ofNat 5 v).isLt
      exact ⟨by simp only; omega, by simp only; omega⟩

theorem sound_dyHdist {s : State} (h : Running s) (hp : Ready s) (ht : s.tag = Tag.dyHdist) : Sound (dyHdist s) := by
  refine sound_read h hp (by decide) fun v _ h1 => ?_
  unfold hdistAct
  split
  · have h2 : Running { afterRead 5 s with hdist := (BitVec.ofNat 5 v).setWidth 6 + 1#6 } := { h1 with }
    exact sound_raise h2 _
  · refine sound_cont ?_ (ready_of_tag Tag.dyHclen rfl ?_)
    · exact { h1 with }
    · have hv := hdist_toNat (BitVec.ofNat 5 v)
      have := (BitVec.ofNat 5 v).isLt
      obtain ⟨h257, h288⟩ := hp.phase.hlit ht
      exact ⟨h257, h288, by simp only; omega, by simp only; omega⟩

theorem sound_dyHclen {s : State} (h : Running s) (hp : Ready s) (ht : s.tag = Tag.dyHclen) : Sound (dyHclen s) := by
  refine sound_read h hp (by decide) fun v _ h1 => ?_
  refine sound_cont ?_ (ready_of_tag Tag.dyCll rfl ?_)
  · exact { h1 with clens := h1.clens.writeBlock (by simp) }
  · have hv := hclen_toNat (BitVec.ofNat 4 v)
    have := (BitVec.ofNat 4 v).isLt
    have hw : Written (Memory.writeBlock s.clens 0 (List.replicate 19 0#3)) (0 + 19) :=
      Written.writeBlock (fun i hi => absurd hi (Nat.not_lt_zero i)) (List.replicate 19 0#3)
    exact ⟨hp.phase.counts (.inl ht), hw, by simp; omega, by simp; omega⟩

theorem sound_dyCll {s : State} (h : Running s) (hp : Ready s) (ht : s.tag = Tag.dyCll) : Sound (dyCll s) := by
  obtain ⟨hw, hk, h19⟩ := hp.phase.cll ht
  have hcounts := hp.phase.counts (.inr (.inl ht))
  obtain ⟨n, hrow, hn⟩ := romClOrder_row (show s.k.toNat < 19 by omega)
  refine sound_read h hp (by decide) fun v _ h1 => ?_
  have hact : cllAct (BitVec.ofNat 3 v) (afterRead 3 s) = .cont { afterRead 3 s with
      clens := Memory.write s.clens n (BitVec.ofNat 3 v)
      k := s.k + 1#5
      tag := if s.k + 1#5 = s.hclen then Tag.dyClbuild else s.tag } := by
    rw [cllAct, show romClOrder (afterRead 3 s).k.toNat = some n from hrow]
    rfl
  rw [hact]
  have hclens : Sized (Memory.write s.clens n (BitVec.ofNat 3 v)) 19 := h.clens.write hn
  have hwritten : Written (Memory.write s.clens n (BitVec.ofNat 3 v)) 19 := hw.write_any n _
  have hk1 : (s.k + 1#5).toNat = s.k.toNat + 1 := by
    rw [BitVec.toNat_add_of_lt (by simp; omega)]
    rfl
  refine sound_cont ?_ ?_
  · exact { h1 with clens := hclens }
  · by_cases hl : s.k + 1#5 = s.hclen
    · exact ready_of_tag Tag.dyClbuild (if_pos hl) ⟨hcounts, hwritten⟩
    · have hne : (s.k + 1#5).toNat ≠ s.hclen.toNat := fun he => hl (BitVec.eq_of_toNat_eq he)
      exact ready_of_tag Tag.dyCll ((if_neg hl).trans ht) ⟨hcounts, hwritten, show (s.k + 1#5).toNat < s.hclen.toNat by omega, h19⟩

theorem sound_dyClbuild {s : State} (h : Running s) (hp : Ready s) (ht : s.tag = Tag.dyClbuild) : Sound (dyClbuild s) := by
  have hcounts := hp.phase.counts (.inr (.inr (.inl ht)))
  obtain ⟨ls, hls, hlen⟩ := (hp.phase.clbuild ht).readBlock (a := 0) (k := 19) (by omega)
  have hlen' : (ls.map BitVec.toNat).length = 19 := by simpa using hlen
  unfold dyClbuild
  rw [hls]
  refine sound_build h fun hb => ?_
  refine sound_cont ?_ (ready_of_tag Tag.dyLsym rfl ?_)
  · exact { h with tCL := h.tCL.builtTable _ false (by rw [hlen']; decide) }
  · have h257 : 257 ≤ s.hlit.toNat := hcounts.1
    exact ⟨hcounts, builtTable_closed s.tCL hb (build_false_ne_empty _) (by omega) (by decide),
      show 0 < s.hlit.toNat + s.hdist.toNat by omega, fun i hi => absurd hi (Nat.not_lt_zero i)⟩

/-! The code lengths (R305, R306). -/

/-- What DY_LSYM and DY_LEXTRA find: the counts, T_CL, and J entries of LENS written, fewer than are wanted. -/
def LensOpen (s : State) : Prop :=
  CountsOk s ∧ TableClosed s.tCL 19 ∧ s.j.toNat < lensWanted s ∧ Written s.lens s.j.toNat

theorem Ready.lensOpen {s : State} (hp : Ready s) (ht : s.tag = Tag.dyLsym ∨ s.tag = Tag.dyLextra) : LensOpen s :=
  ⟨hp.phase.counts (by rcases ht with ht | ht <;> simp [ht]), hp.phase.lsym ht⟩

theorem CountsOk.lensWanted_le {s : State} (h : CountsOk s) : lensWanted s ≤ 320 := by
  obtain ⟨-, h288, -, h32⟩ := h
  rw [lensWanted]
  omega

/-- A run of code lengths at J, at most as many as are wanted still: DY_BUILD is next when none is missing. -/
theorem ready_fill {s : State} (h : LensOpen s) {vs : List (BitVec 4)} (hn : s.j.toNat + vs.length ≤ lensWanted s)
    (v : BitVec 4) {j : BitVec 9} (hj : j = s.j + BitVec.ofNat 9 vs.length) {t : BitVec 5}
    (ht : t = if s.j.toNat + vs.length = lensWanted s then Tag.dyBuild else Tag.dyLsym) :
    Ready { s with lens := Memory.writeBlock s.lens s.j.toNat vs, j := j, lastLen := v, tag := t } := by
  obtain ⟨hcounts, hclosed, hlt, hwritten⟩ := h
  have hle := hcounts.lensWanted_le
  have hj' : j.toNat = s.j.toNat + vs.length := by
    rw [hj]
    simp only [BitVec.toNat_add, BitVec.toNat_ofNat]
    omega
  have hw : Written (Memory.writeBlock s.lens s.j.toNat vs) j.toNat := hj' ▸ hwritten.writeBlock vs
  split at ht
  next hall => exact ready_of_tag Tag.dyBuild ht ⟨hcounts, hj'.trans hall, hw⟩
  next hmore => exact ready_of_tag Tag.dyLsym ht ⟨hcounts, hclosed, show j.toNat < lensWanted s by omega, hw⟩

theorem sound_clLenAct {s : State} (h : Running s) (ho : LensOpen s) (ht : s.tag = Tag.dyLsym) (v : BitVec 4) :
    Sound (clLenAct v s) := by
  have ⟨hcounts, _, hlt, _⟩ := ho
  have hle := hcounts.lensWanted_le
  rw [clLenAct, if_neg (by show ¬ 320 ≤ _; omega)]
  refine sound_cont ?_ ?_
  · exact { h with lens := h.lens.write (by omega) }
  · refine ready_fill ho (vs := [v]) hlt v rfl ?_
    rw [ht]
    rfl

theorem sound_lsymAct {s : State} (h : Running s) (ho : LensOpen s) (ht : s.tag = Tag.dyLsym) {v : Nat} (hv : v < 19) :
    Sound (lsymAct v s) := by
  unfold lsymAct
  split
  · exact sound_clLenAct h ho ht _
  next h15 =>
    rw [if_neg (by omega)]
    split
    · exact sound_raise h _
    next h16 =>
      have hcur : (BitVec.ofNat 9 v).toNat = v := by
        rw [BitVec.toNat_ofNat]
        omega
      refine sound_cont ?_ (ready_of_tag Tag.dyLextra rfl ⟨ho, ?_, ?_, ?_⟩)
      · exact { h with }
      · show 16 ≤ (BitVec.ofNat 9 v).toNat
        omega
      · show (BitVec.ofNat 9 v).toNat ≤ 18
        omega
      · intro hc hj
        have hc16 : (BitVec.ofNat 9 v).toNat = 16 := congrArg BitVec.toNat hc
        exact h16 ⟨by omega, hj⟩

theorem sound_dyLsym {s : State} (h : Running s) (hp : Ready s) (ht : s.tag = Tag.dyLsym) : Sound (dyLsym s) := by
  have ho := hp.lensOpen (.inl ht)
  have ⟨_, hclosed, _, _⟩ := ho
  refine sound_symbol h hp hclosed fun v k hv h1 => ?_
  exact sound_lsymAct h1 ho ht hv

theorem sound_fillLens {s : State} (h : Running s) (ho : LensOpen s) (n : Nat) (v : BitVec 4) : Sound (fillLens n v s) := by
  have hle := ho.1.lensWanted_le
  unfold fillLens
  split
  · exact sound_raise h _
  next hn =>
    rw [if_neg (by show ¬ 320 < _; omega)]
    have hlen : (List.replicate n v).length = n := List.length_replicate
    refine sound_cont ?_ (ready_fill ho (by rw [hlen]; omega) v (by rw [hlen]) (by rw [hlen]))
    exact { h with lens := h.lens.writeBlock (by rw [hlen]; omega) }

theorem sound_dyLextra {s : State} (h : Running s) (hp : Ready s) (ht : s.tag = Tag.dyLextra) : Sound (dyLextra s) := by
  have ho := hp.lensOpen (.inr ht)
  obtain ⟨h16, h18, -⟩ := hp.phase.lextra ht
  have hcur : s.cur.toNat = 16 ∨ s.cur.toNat = 17 ∨ s.cur.toNat = 18 := by omega
  rcases hcur with hc | hc | hc <;> rw [dyLextra, hc] <;>
    exact sound_read h hp (by decide) fun v _ h1 => sound_fillLens h1 ho _ _

theorem sound_dyBuild {s : State} (h : Running s) (hp : Ready s) (ht : s.tag = Tag.dyBuild) : Sound (dyBuild s) := by
  obtain ⟨-, h288, -, h32⟩ := hp.phase.counts (.inr (.inr (.inr (.inr (.inr ht)))))
  obtain ⟨hj, hw⟩ := hp.phase.build ht
  rw [lensWanted] at hj
  obtain ⟨ll, hll, hlenl⟩ := hw.readBlock (a := 0) (k := s.hlit.toNat) (by omega)
  obtain ⟨dl, hdl, hlend⟩ := hw.readBlock (a := s.hlit.toNat) (k := s.hdist.toNat) (by omega)
  unfold dyBuild
  rw [hll, hdl]
  exact sound_symbolTables h (by rw [List.length_map]; omega) (by rw [List.length_map]; omega)
    fun he hempty => by rw [hempty] at he; exact absurd he (by decide)

/-! The symbol phase (R343 to R347). -/

theorem sound_sym {s : State} (h : Running s) (hp : Ready s) (ht : s.tag = Tag.sym) : Sound (sym s) := by
  have htab := hp.phase.tables (.inl ht)
  refine sound_symbol h hp htab.1 fun v k hv h1 => ?_
  unfold symAct
  split
  · exact sound_put h1 (ready_of_tag Tag.sym ht htab) _
  next h256 =>
    split
    · refine sound_cont ?_ (ready_of_tag Tag.blkEnd rfl trivial)
      exact { h1 with }
    next hne =>
      split
      · exact sound_raise h1 _
      next h285 =>
        have hcur : (BitVec.ofNat 9 v).toNat = v := by
          rw [BitVec.toNat_ofNat]
          omega
        refine sound_cont ?_ (ready_of_tag Tag.lenExtra rfl ⟨htab, ?_, ?_⟩)
        · exact { h1 with }
        · show 257 ≤ (BitVec.ofNat 9 v).toNat
          omega
        · show (BitVec.ofNat 9 v).toNat ≤ 285
          omega

theorem sound_lenExtra {s : State} (h : Running s) (hp : Ready s) (ht : s.tag = Tag.lenExtra) : Sound (lenExtra s) := by
  have htab := hp.phase.tables (.inr (.inl ht))
  obtain ⟨h257, h285⟩ := hp.phase.lenExtra ht
  obtain ⟨b, e, hrow, he, h3, h259⟩ := romLen_row h257 h285
  unfold lenExtra
  rw [hrow]
  refine sound_read h hp (show e ≤ 16 by omega) fun v hv h1 => ?_
  unfold lengthAct
  rw [show romLen (afterRead e s).cur.toNat = some (b, e) from hrow]
  have hm : (BitVec.ofNat 9 (b + v)).toNat = b + v := by
    rw [BitVec.toNat_ofNat]
    omega
  refine sound_cont ?_ (ready_of_tag Tag.dsym rfl ⟨htab, ?_, ?_⟩)
  · exact { h1 with }
  · show 3 ≤ (BitVec.ofNat 9 (b + v)).toNat
    omega
  · show (BitVec.ofNat 9 (b + v)).toNat ≤ 258
    omega

theorem sound_dsym {s : State} (h : Running s) (hp : Ready s) (ht : s.tag = Tag.dsym) : Sound (dsym s) := by
  have htab := hp.phase.tables (.inr (.inr (.inl ht)))
  have hmlen := hp.phase.mlen (.inl ht)
  unfold dsym
  split
  · exact sound_raise h _
  next hd =>
    refine sound_symbol h hp (htab.2 (by simpa using hd)) fun v k hv h1 => ?_
    unfold dsymAct
    split
    · exact sound_raise h1 _
    next h30 =>
      refine sound_cont ?_ (ready_of_tag Tag.distExtra rfl ⟨htab, hmlen, ?_⟩)
      · exact { h1 with }
      · show (BitVec.ofNat 5 v).toNat < 30
        have : ¬ 30 ≤ v := h30
        rw [BitVec.toNat_ofNat]
        omega

/-- A distance that HIST allows begins a copy of MLEN bytes (R346). -/
theorem sound_distExtra {s : State} (h : Running s) (hp : Ready s) (ht : s.tag = Tag.distExtra) : Sound (distExtra s) := by
  have htab := hp.phase.tables (.inr (.inr (.inr (.inl ht))))
  obtain ⟨hm3, hm258⟩ := hp.phase.mlen (.inr ht)
  obtain ⟨b, e, hrow, he, h1b, hb⟩ := romDist_row (hp.phase.distExtra ht)
  unfold distExtra
  rw [hrow]
  refine sound_read h hp (show e ≤ 16 by omega) fun v hv h1 => ?_
  unfold distanceAct
  rw [show romDist (afterRead e s).dsym.toNat = some (b, e) from hrow]
  simp only
  split
  · have h2 : Running { afterRead e s with dsym := BitVec.ofNat 5 s.dsym.toNat, dist := BitVec.ofNat 16 (b + v) } :=
      { h1 with }
    exact sound_raise h2 _
  next hle =>
    have hhist : b + v ≤ s.hist.toNat := Nat.not_lt.1 hle
    have hd : (BitVec.ofNat 16 (b + v)).toNat = b + v := by
      rw [BitVec.toNat_ofNat]
      omega
    have hr : (s.mlen.setWidth 16).toNat = s.mlen.toNat := by
      rw [BitVec.toNat_setWidth]
      omega
    refine sound_cont ?_ (ready_of_tag Tag.copy rfl ⟨htab, ?_, ?_, ?_, ?_⟩)
    · exact { h1 with }
    · show 1 ≤ (s.mlen.setWidth 16).toNat
      omega
    · show (s.mlen.setWidth 16).toNat ≤ 258
      omega
    · show 1 ≤ (BitVec.ofNat 16 (b + v)).toNat
      omega
    · show (BitVec.ofNat 16 (b + v)).toNat ≤ s.hist.toNat
      omega

theorem sound_copy {s : State} (h : Running s) (hp : Ready s) (ht : s.tag = Tag.copy) : Sound (copy s) := by
  have htab := hp.phase.tables (.inr (.inr (.inr (.inr ht))))
  obtain ⟨hr1, hr258, hd1, hd⟩ := hp.phase.copy ht
  have hhist := h.hist
  obtain ⟨v, hv⟩ := Option.isSome_iff_exists.1 (h.written s.dist.toNat hd1 hd)
  rw [copy, winIndex_eq_backIndex s (by omega), hv]
  have h1 : Running (copyCount s) := { h with }
  refine sound_put h1 ?_ v
  by_cases h0 : s.rem - 1#16 = 0#16
  · exact ready_of_tag Tag.sym (if_pos h0) htab
  · obtain ⟨h2, h3⟩ := rem_pred hr1 h0
    exact ready_of_tag Tag.copy ((if_neg h0).trans ht) ⟨htab, h2, h3.trans hr258, hd1, hd⟩

/-! All of them. -/

/-- The micro-operation that TAG selects keeps the invariant and does not stop (R46, R237, R349). -/
theorem Selects.sound {s : State} {m : Micro} (hm : Selects s m) (h : Inv s) (hs : s.stepping = true) : Sound m := by
  have run : ∀ {t : BitVec 5}, s.tag = t → t ≠ Tag.fin ∧ t ≠ Tag.done ∧ t ≠ Tag.failed → Running s := by
    rintro t rfl ⟨h1, h2, h3⟩
    exact h.running hs h1 h2 h3
  cases hm with
  | zhdr ht => exact sound_zhdr (run ht (by decide)) h.ready
  | bhdr ht => exact sound_bhdr (run ht (by decide)) h.ready
  | stLen ht => exact sound_stLen (run ht (by decide)) h.ready
  | stNlen ht => exact sound_stNlen (run ht (by decide)) h.ready
  | stCopy ht => exact sound_stCopy (run ht (by decide)) h.ready ht
  | fxBuild ht => exact sound_fxBuild (run ht (by decide))
  | dyHlit ht => exact sound_dyHlit (run ht (by decide)) h.ready
  | dyHdist ht => exact sound_dyHdist (run ht (by decide)) h.ready ht
  | dyHclen ht => exact sound_dyHclen (run ht (by decide)) h.ready ht
  | dyCll ht => exact sound_dyCll (run ht (by decide)) h.ready ht
  | dyClbuild ht => exact sound_dyClbuild (run ht (by decide)) h.ready ht
  | dyLsym ht => exact sound_dyLsym (run ht (by decide)) h.ready ht
  | dyLextra ht => exact sound_dyLextra (run ht (by decide)) h.ready ht
  | dyBuild ht => exact sound_dyBuild (run ht (by decide)) h.ready ht
  | sym ht => exact sound_sym (run ht (by decide)) h.ready ht
  | lenExtra ht => exact sound_lenExtra (run ht (by decide)) h.ready ht
  | dsym ht => exact sound_dsym (run ht (by decide)) h.ready ht
  | distExtra ht => exact sound_distExtra (run ht (by decide)) h.ready ht
  | copy ht => exact sound_copy (run ht (by decide)) h.ready ht
  | blkEnd ht => exact sound_blkEnd (run ht (by decide))
  | fin ht => exact sound_fin h hs

end Sys2Proof.Machine

/-! PROOF. Every host command keeps the invariant and does not stop; StepKeepsInv and StepNeverStops. -/

namespace Sys2Proof.Machine

theorem status_none_legal : Status.none ≠ 5#3 ∧ Status.none ≠ 6#3 := by decide

theorem wpos_zero_room : (0#16).toNat < Config.winSize := by decide

/-! What a command leaves of the invariant's registers. -/

/-- A command that answers, and spends a draw at most, keeps the invariant. -/
theorem Inv.answer {s : State} (h : Inv s) (r : Response) (n : Nat) : Inv { s with response := r, draws := n } :=
  { h with mem := { h.mem with }, phase := { h.phase with } }

theorem Inv.takeCommand {s : State} (h : Inv s) (cs : List Command) : Inv { s with port := cs } :=
  { h with mem := { h.mem with }, phase := { h.phase with } }

theorem Inv.refuse {s : State} (h : Inv s) : Inv (refuse s) := h.answer _ _

theorem Inv.rejectState {s : State} (h : Inv s) : Inv (rejectState s) :=
  { h with acked := nofun, mem := { h.mem with }, phase := { h.phase with } }

/-- The fatal entry needs nothing of TAG's phase (R503). -/
theorem Inv.fatal {s : State} (h : Inv s) (k : ErrKind) : Inv (fatal k s) :=
  have hp : Ready (Machine.fatal k s) := ready_of_tag Tag.failed rfl trivial
  { h with
    tag := hp.tag
    status := status_error_legal
    errKind := errCode_le k
    acked := nofun
    full := fun _ => .inr (.inr (.inr rfl))
    written := fun _ _ hf => absurd rfl hf
    mem := { h.mem with }
    phase := hp.phase }

/-- OPEN begins a stream with an empty history (R432). -/
theorem Inv.openStream {s : State} (h : Inv s) (span : List Byte) (ph nla ovr : Bool) :
    Inv (openStream span ph nla ovr s) := by
  have hp : Ready (Machine.openStream span ph nla ovr s) := by
    cases ph
    · exact ready_of_tag Tag.bhdr rfl trivial
    · exact ready_of_tag Tag.zhdr rfl trivial
  exact {
    tag := hp.tag
    vendor := rfl
    nbits := Nat.zero_le _
    ipos := Nat.zero_le _
    hist := Nat.zero_le _
    wpos := le_refl _
    status := status_none_legal
    errKind := Nat.zero_le _
    room := .inl wpos_zero_room
    acked := nofun
    full := nofun
    span := nofun
    spanWritten := nofun
    written := fun _ _ _ d h1 h2 => absurd (h1.trans h2) (Nat.not_succ_le_zero 0)
    mem := { h.mem with }
    phase := hp.phase }

/-- The acknowledged flush begins the window anew: from WPOS = 32768 the last HIST bytes stay where they are (R341, R342). -/
theorem Inv.ackFlush {s : State} (h : Inv s) : Inv (ackFlush s) := by
  rcases ackFlush_cases s with ⟨hf, ha⟩ | ⟨-, ha⟩
  · rw [ha]
    exact { h with
      wpos := Nat.zero_le _
      room := .inl wpos_zero_room
      acked := fun _ => rfl
      full := nofun
      span := nofun
      spanWritten := nofun
      written := fun h1 h2 h3 d hd1 hd => by
        have hw : s.wpos = 32768#16 := by
          rcases h.full hf with hw | ht | ht | ht
          · exact hw
          · exact absurd ht h1
          · exact absurd ht h2
          · exact absurd ht h3
        have hidx : backIndex { s with wpos := 0#16, outLen := 0#16, flushPending := false } d = backIndex s d := by
          have hh : d ≤ 32768 := le_trans hd h.hist
          rw [backIndex, backIndex, hw]
          show (0 + 32768 - d) % 32768 = (32768 + 32768 - d) % 32768
          omega
        rw [hidx]
        exact h.written h1 h2 h3 d hd1 hd
      mem := { h.mem with }
      phase := { h.phase with } }
  · rw [ha]
    exact h

theorem Inv.beginStep {s : State} (h : Inv s) : Inv (beginStep s) :=
  { h.ackFlush with
    acked := fun _ => ackFlush_flushPending s
    mem := { h.ackFlush.mem with }
    phase := { h.ackFlush.phase with } }

theorem Inv.supply {s : State} (h : Inv s) (span : List Byte) (r : Response) :
    Inv { s with span := span, ipos := 0, response := r } :=
  { h with ipos := Nat.zero_le _, mem := { h.mem with }, phase := { h.phase with } }

/-! The commands. -/

theorem readOut_sound {s : State} (h : Inv s) (index : BitVec 16) : ∃ t, execReadOut index s = .next t ∧ Inv t := by
  unfold execReadOut
  split
  next hc =>
    simp only [Bool.and_eq_true, decide_eq_true_eq] at hc
    obtain ⟨⟨⟨hf, -⟩, -⟩, hlt⟩ := hc
    obtain ⟨b, hb⟩ := Option.isSome_iff_exists.1 (h.spanWritten hf index.toNat hlt)
    rw [hb]
    exact ⟨_, rfl, h.answer _ _⟩
  · exact ⟨_, rfl, h.refuse⟩

/-- Every host command keeps the invariant, and none stops. -/
theorem IsCommand.sound {c : Command} {i : Instr} (hi : IsCommand c i) {s : State} (h : Inv s) :
    ∃ t, exec i s = .next t ∧ Inv t := by
  cases hi with
  | openStream ph nla vnd ovr _ =>
    refine ⟨_, rfl, ?_⟩
    split
    · exact h.refuse
    · exact h.openStream _ _ _ _
  | step =>
    refine ⟨_, rfl, ?_⟩
    split
    · exact h.rejectState
    · split
      · exact h.fatal _
      · exact h.beginStep
  | supply _ =>
    refine ⟨_, rfl, ?_⟩
    split
    · exact h.rejectState
    · split
      · exact h.fatal _
      · exact h.supply _ _
  | isFinal =>
    refine ⟨_, rfl, ?_⟩
    split
    · exact h.refuse
    · split
      · exact h.answer _ _
      · exact h.answer _ _
  | position =>
    refine ⟨_, rfl, ?_⟩
    split
    · exact h.refuse
    · split
      · exact h.answer _ _
      · exact h.answer _ _
  | readOut index => exact readOut_sound h index
  | readCrc =>
    refine ⟨_, rfl, ?_⟩
    split
    · exact h.refuse
    · split
      · exact h.answer _ _
      · exact h.answer _ _
  | reserved _ => exact ⟨_, rfl, h.refuse⟩

/-! Every step. -/

/-- From a state with the invariant a step does not stop, and what it leaves meets the invariant. -/
theorem Inv.step {s : State} (h : Inv s) : ∃ t, step s = .next t ∧ Inv t := by
  cases hs : s.stepping with
  | true =>
    rcases step_of_stepping hs with ⟨-, he⟩ | ⟨-, he⟩ | ⟨m, hm, he⟩
    · exact ⟨_, he, h.rejectState⟩
    · exact ⟨_, he, h.fatal _⟩
    · rw [he]
      exact hm.sound h hs
  | false =>
    rcases step_of_idle hs with he | ⟨c, cs, -, he | ⟨i, hi, he⟩⟩
    · exact ⟨_, he, h⟩
    · exact ⟨_, he, (h.takeCommand cs).refuse⟩
    · rw [he]
      exact hi.sound (h.takeCommand cs)

/-- Settles O58: each micro-operation and each command keeps the invariant. -/
theorem stepKeepsInv : Obligations.StepKeepsInv := by
  intro s t h hstep
  obtain ⟨u, hu, hinv⟩ := h.step
  rw [hstep, Host.Outcome.next.injEq] at hu
  exact hu ▸ hinv

/-- Settles O59: each micro-operation and each command finds written what it reads. -/
theorem stepNeverStops : Obligations.StepNeverStops := by
  intro s h
  obtain ⟨t, ht, -⟩ := h.step
  exact ⟨t, ht⟩

end Sys2Proof.Machine

/-! PROOF. What a micro-step leaves unchanged: the configuration, the stream but for the bits it consumes, every table and
length array but those its micro-operation names. -/

namespace Sys2Proof.Machine

/-! The frame of a micro-step. -/

/-- From `s` to `u` some first stream bits are consumed, the span is kept, and IPOS and IN_TOTAL count the same pulled bytes
(R33, R92). -/
def Consumes (s u : State) : Prop :=
  ∃ k m : Nat, streamBits u = (streamBits s).drop k ∧ u.span = s.span ∧ u.ipos = s.ipos + m ∧
    u.inTotal = s.inTotal + BitVec.ofNat 64 m

/-- The registers OPEN alone writes have one value in both states (R44). -/
def SameConfig (s u : State) : Prop :=
  u.parseHeader = s.parseHeader ∧ u.nlenChecked = s.nlenChecked ∧ u.rejectOversize = s.rejectOversize ∧ u.vendor = s.vendor

/-- What a micro-step from `s` leaves in `u`, by the TAG of `s` (R40, R41, R44, R92). -/
structure Framed (s u : State) : Prop where
  input : Consumes s u
  config : SameConfig s u
  tables : s.tag ≠ Tag.fxBuild → s.tag ≠ Tag.dyBuild → u.tLL = s.tLL ∧ u.tD = s.tD
  tCL : s.tag ≠ Tag.dyClbuild → u.tCL = s.tCL
  clens : s.tag ≠ Tag.dyHclen → s.tag ≠ Tag.dyCll → u.clens = s.clens
  lens : s.tag ≠ Tag.dyLsym → s.tag ≠ Tag.dyLextra → u.lens = s.lens

/-- A suspended micro-step: PULL(n) and no more, with fewer than `n` bits at hand (R208). -/
def Waits (s u : State) : Prop := ∃ n, n ≤ 16 ∧ avail s < n ∧ u = pull n s

/-- A micro-step from `s` keeps the frame, and when it suspends, all but its pulls; one that goes on leaves its STEP in
progress. -/
inductive Frames (s : State) : Micro → Prop where
  | cont {u : State} (h : Framed s u) (hs : u.stepping = s.stepping) : Frames s (.cont u)
  | event {e : Event} {u : State} (h : Framed s u) : Frames s (.event e u)
  | suspend {u : State} (h : Waits s u) : Frames s (.suspend u)
  | raise {k : ErrKind} {u : State} (h : Framed s u) : Frames s (.raise k u)
  | stop {f : Fault} : Frames s (.stop f)

theorem Framed.pull {s u : State} (h : Framed s u) (n : Nat) : Framed s (pull n u) := by
  obtain ⟨k, m, hbits, hspan, hipos, htotal⟩ := h.input
  have hin : Consumes s (Machine.pull n u) := by
    refine ⟨k, m + (pullBytes n (u.span.drop u.ipos) u.acc).2, ?_, hspan, ?_, ?_⟩
    · rw [streamBits_pull, hbits]
    · rw [pull_ipos, hipos, Nat.add_assoc]
    · rw [pull_inTotal, htotal, BitVec.add_assoc, ← BitVec.ofNat_add]
  exact { h with input := hin }

theorem Framed.drop {s u : State} (h : Framed s u) {n : Nat} (hn : n ≤ u.acc.length) : Framed s (drop n u) := by
  obtain ⟨k, m, hbits, hspan, hipos, htotal⟩ := h.input
  have hin : Consumes s (Machine.drop n u) := by
    refine ⟨k + n, m, ?_, hspan, hipos, htotal⟩
    rw [← List.drop_drop, ← hbits, streamBits, streamBits, List.drop_append_of_le_length hn]
    rfl
  exact { h with input := hin }

theorem Framed.refl (s : State) : Framed s s where
  input := ⟨0, 0, rfl, rfl, rfl, (BitVec.add_zero _).symm⟩
  config := ⟨rfl, rfl, rfl, rfl⟩
  tables := fun _ _ => ⟨rfl, rfl⟩
  tCL := fun _ => rfl
  clens := fun _ _ => rfl
  lens := fun _ _ => rfl

theorem le_acc_length_pull {s : State} {n : Nat} (h : n ≤ avail s) : n ≤ (pull n s).acc.length :=
  Nat.not_lt.1 fun hc => Nat.not_lt.2 h ((pull_short_iff n s).1 hc)

theorem framed_afterRead {s : State} {n : Nat} (h : n ≤ avail s) : Framed s (afterRead n s) :=
  ((Framed.refl s).pull n).drop (le_acc_length_pull h)

theorem Waits.framed {s u : State} (h : Waits s u) : Framed s u := by
  obtain ⟨n, -, -, rfl⟩ := h
  exact (Framed.refl s).pull n

/-! The bit reader, the symbol walker, BUILD and PUT keep the frame. -/

theorem frames_peek {s : State} {n : Nat} (hn : n ≤ 16) {go : Nat → State → Micro}
    (hgo : ∀ v, n ≤ avail s → Framed s (pull n s) → Frames s (go v (pull n s))) : Frames s (withPeek n s go) := by
  rw [withPeek_eq n hn]
  split
  next hav => exact .suspend ⟨n, hn, hav, rfl⟩
  next hav => exact hgo _ (Nat.not_lt.1 hav) ((Framed.refl s).pull n)

theorem frames_read {s : State} {n : Nat} (hn : n ≤ 16) {go : Nat → State → Micro}
    (hgo : ∀ v, Framed s (afterRead n s) → Frames s (go v (afterRead n s))) : Frames s (withRead n s go) :=
  frames_peek hn fun v hav _ => hgo v (framed_afterRead hav)

theorem frames_symbol {s : State} {t : Memory Entry} {go : Nat → State → Micro}
    (hgo : ∀ v k, Framed s (afterRead k s) → Frames s (go v (afterRead k s))) : Frames s (withSymbol t s go) := by
  rcases walk_cases t s with ⟨k, e, i, -, -, hav, -, -, hw⟩ | ⟨k, -, h15, hav, hw⟩ | ⟨k, -, -, hw⟩ | hw <;>
    rw [withSymbol, hw]
  · exact hgo _ k (framed_afterRead hav)
  · exact .suspend ⟨k, by omega, hav, rfl⟩
  · exact .raise ((Framed.refl s).pull k)
  · exact .stop

theorem frames_build {s u : State} (h : Framed s u) {b : Built} {go : State → Micro} (hgo : Frames s (go u)) :
    Frames s (withBuild b u go) := by
  rcases withBuild_cases b u go with ⟨r, -, hw⟩ | ⟨-, hw⟩ <;> rw [hw]
  · exact .raise { h with }
  · exact hgo

theorem frames_put {s u : State} (h : Framed s u) (hs : u.stepping = s.stepping) (v : Byte) : Frames s (put v u) := by
  unfold put
  split
  · exact .stop
  · split
    · exact .event { h with }
    · exact .cont { h with } hs

/-! The micro-operations. -/

theorem frames_zhdr (s : State) : Frames s (zhdr s) := by
  refine frames_peek (by decide) fun v hav h => ?_
  unfold zhdrAct
  split
  · split
    · exact .raise h
    · have h1 := h.drop (le_acc_length_pull hav)
      exact .cont { h1 with } rfl
  · exact .cont { h with } rfl

theorem frames_bhdr (s : State) : Frames s (bhdr s) := by
  unfold bhdr
  split
  · exact .stop
  · refine frames_read (by decide) fun v h => ?_
    unfold bhdrAct
    split
    · have h1 := h.drop (Nat.mod_le (afterRead 3 s).acc.length 8)
      exact .cont { h1 with } rfl
    · exact .cont { h with } rfl
    · exact .cont { h with } rfl
    · exact .raise { h with }

theorem frames_stLen (s : State) : Frames s (stLen s) := by
  refine frames_read (by decide) fun v h => ?_
  unfold lenAct
  split
  · exact .cont { h with } rfl
  · exact .cont { h with } rfl

theorem frames_stNlen (s : State) : Frames s (stNlen s) := by
  refine frames_read (by decide) fun v h => ?_
  unfold nlenAct
  split
  · exact .cont { h with } rfl
  · exact .raise h

theorem frames_stCopy (s : State) : Frames s (stCopy s) := by
  refine frames_read (by decide) fun v h => ?_
  have h1 : Framed s (countDown Tag.blkEnd (afterRead 8 s)) := { h with }
  exact frames_put h1 rfl _

/-- FX_BUILD and DY_BUILD write T_LL and T_D (R40). -/
theorem frames_symbolTables {s : State} (ht : s.tag = Tag.fxBuild ∨ s.tag = Tag.dyBuild) (ll dl : List Nat) (e : Bool) :
    Frames s (withBuild (build ll false) s fun s1 =>
      withBuild (build dl true) { s1 with tLL := builtTable (build ll false) s1.tLL } fun s2 =>
        .cont { s2 with tD := builtTable (build dl true) s2.tD, dEmpty := e, tag := Tag.sym }) := by
  have hn : ∀ {p : Prop}, s.tag ≠ Tag.fxBuild → s.tag ≠ Tag.dyBuild → p := fun h1 h2 => absurd ht (not_or.2 ⟨h1, h2⟩)
  have h0 := Framed.refl s
  have h1 : Framed s { s with tLL := builtTable (build ll false) s.tLL } := { h0 with tables := hn }
  exact frames_build h0 (frames_build h1 (.cont { h1 with tables := hn } rfl))

theorem frames_fxBuild {s : State} (ht : s.tag = Tag.fxBuild) : Frames s (fxBuild s) :=
  frames_symbolTables (.inl ht) romFixedLL romFixedD false

theorem frames_dyBuild {s : State} (ht : s.tag = Tag.dyBuild) : Frames s (dyBuild s) := by
  unfold dyBuild
  split
  · exact frames_symbolTables (.inr ht) _ _ _
  · exact .stop

theorem frames_dyHlit (s : State) : Frames s (dyHlit s) := by
  refine frames_read (by decide) fun v h => ?_
  unfold hlitAct
  split
  · exact .raise { h with }
  · exact .cont { h with } rfl

theorem frames_dyHdist (s : State) : Frames s (dyHdist s) := by
  refine frames_read (by decide) fun v h => ?_
  unfold hdistAct
  split
  · exact .raise { h with }
  · exact .cont { h with } rfl

theorem frames_dyHclen {s : State} (ht : s.tag = Tag.dyHclen) : Frames s (dyHclen s) :=
  frames_read (by decide) fun _ h => .cont { h with clens := fun h1 _ => absurd ht h1 } rfl

theorem frames_dyCll {s : State} (ht : s.tag = Tag.dyCll) : Frames s (dyCll s) := by
  refine frames_read (by decide) fun v h => ?_
  unfold cllAct
  split
  · exact .stop
  · exact .cont { h with clens := fun _ h2 => absurd ht h2 } rfl

theorem frames_dyClbuild {s : State} (ht : s.tag = Tag.dyClbuild) : Frames s (dyClbuild s) := by
  have h0 := Framed.refl s
  unfold dyClbuild
  split
  · exact .stop
  · exact frames_build h0 (.cont { h0 with tCL := fun h1 => absurd ht h1 } rfl)

theorem frames_dyLsym {s : State} (ht : s.tag = Tag.dyLsym) : Frames s (dyLsym s) := by
  refine frames_symbol fun v k h => ?_
  unfold lsymAct
  split
  · unfold clLenAct
    split
    · exact .stop
    · exact .cont { h with lens := fun h1 _ => absurd ht h1 } rfl
  · split
    · exact .stop
    · split
      · exact .raise h
      · exact .cont { h with } rfl

theorem frames_fillLens {s u : State} (ht : s.tag = Tag.dyLextra) (h : Framed s u) (hs : u.stepping = s.stepping) (n : Nat)
    (v : BitVec 4) : Frames s (fillLens n v u) := by
  unfold fillLens
  split
  · exact .raise h
  · split
    · exact .stop
    · exact .cont { h with lens := fun _ h2 => absurd ht h2 } hs

theorem frames_dyLextra {s : State} (ht : s.tag = Tag.dyLextra) : Frames s (dyLextra s) := by
  unfold dyLextra
  split
  · exact frames_read (by decide) fun _ h => frames_fillLens ht h rfl _ _
  · exact frames_read (by decide) fun _ h => frames_fillLens ht h rfl _ _
  · exact frames_read (by decide) fun _ h => frames_fillLens ht h rfl _ _
  · exact .stop

theorem frames_sym (s : State) : Frames s (sym s) := by
  refine frames_symbol fun v k h => ?_
  unfold symAct
  split
  · exact frames_put h rfl _
  · split
    · exact .cont { h with } rfl
    · split
      · exact .raise h
      · exact .cont { h with } rfl

/-- The extra bits of a length symbol are at most 16 (R129). -/
theorem romLen_extra_le {v b e : Nat} (h : romLen v = some (b, e)) : e ≤ 16 := by
  have rows : ∀ r ∈ romLenRows, r.2 ≤ 16 := by decide
  unfold romLen at h
  split at h
  · cases h
  · exact rows _ (List.mem_of_getElem? h)

/-- The extra bits of a distance symbol are at most 16 (R130). -/
theorem romDist_extra_le {v b e : Nat} (h : romDist v = some (b, e)) : e ≤ 16 := by
  have rows : ∀ r ∈ romDistRows, r.2 ≤ 16 := by decide
  exact rows _ (List.mem_of_getElem? h)

theorem frames_lenExtra (s : State) : Frames s (lenExtra s) := by
  unfold lenExtra
  split
  · exact .stop
  next b e hrow =>
    refine frames_read (romLen_extra_le hrow) fun v h => ?_
    unfold lengthAct
    split
    · exact .stop
    · exact .cont { h with } rfl

theorem frames_dsym (s : State) : Frames s (dsym s) := by
  unfold dsym
  split
  · exact .raise (Framed.refl s)
  · refine frames_symbol fun v k h => ?_
    unfold dsymAct
    split
    · exact .raise h
    · exact .cont { h with } rfl

theorem frames_distExtra (s : State) : Frames s (distExtra s) := by
  unfold distExtra
  split
  · exact .stop
  next b e hrow =>
    refine frames_read (romDist_extra_le hrow) fun v h => ?_
    unfold distanceAct
    split
    · exact .stop
    · split
      · exact .raise { h with }
      · exact .cont { h with } rfl

theorem frames_copy (s : State) : Frames s (copy s) := by
  have h0 := Framed.refl s
  have h1 : Framed s (copyCount s) := { h0 with }
  unfold copy
  split
  · exact .stop
  · exact frames_put h1 rfl _

theorem frames_blkEnd (s : State) : Frames s (blkEnd s) := by
  have h0 := Framed.refl s
  unfold blkEnd
  split
  · split
    · exact .event { h0 with }
    · exact .event { h0 with }
  · exact .event { h0 with }

theorem frames_fin (s : State) : Frames s (fin s) := by
  have h0 := Framed.refl s
  exact .event { h0 with }

/-- The micro-operation that TAG selects keeps its frame. -/
theorem Selects.frames {s : State} {m : Micro} (hm : Selects s m) : Frames s m := by
  cases hm with
  | zhdr _ => exact frames_zhdr s
  | bhdr _ => exact frames_bhdr s
  | stLen _ => exact frames_stLen s
  | stNlen _ => exact frames_stNlen s
  | stCopy _ => exact frames_stCopy s
  | fxBuild ht => exact frames_fxBuild ht
  | dyHlit _ => exact frames_dyHlit s
  | dyHdist _ => exact frames_dyHdist s
  | dyHclen ht => exact frames_dyHclen ht
  | dyCll ht => exact frames_dyCll ht
  | dyClbuild ht => exact frames_dyClbuild ht
  | dyLsym ht => exact frames_dyLsym ht
  | dyLextra ht => exact frames_dyLextra ht
  | dyBuild ht => exact frames_dyBuild ht
  | sym _ => exact frames_sym s
  | lenExtra _ => exact frames_lenExtra s
  | dsym _ => exact frames_dsym s
  | distExtra _ => exact frames_distExtra s
  | copy _ => exact frames_copy s
  | blkEnd _ => exact frames_blkEnd s
  | fin _ => exact frames_fin s

end Sys2Proof.Machine

/-! PROOF. Who writes the tables, the configuration and the input: TableWrites, HostWrites, StreamConsumed. -/

namespace Sys2Proof.Machine

/-! A step during a STEP. -/

theorem Framed.afterContinue {s u : State} (h : Framed s u) : Framed s (afterContinue u) := { h with }

theorem Framed.endStep {s u : State} (h : Framed s u) (st : BitVec 3) : Framed s (endStep st u) := { h with }

theorem Framed.fatal {s u : State} (h : Framed s u) (k : ErrKind) : Framed s (fatal k u) := { h with }

theorem Framed.rejectState {s u : State} (h : Framed s u) : Framed s (rejectState u) := { h with }

/-- What a micro-step leaves once STEP has dealt with its outcome (R431). -/
theorem Frames.framed {s t : State} {m : Micro} (hm : Frames s m) (h : finish m = .next t) : Framed s t := by
  cases hm with
  | cont hu _ => cases h; exact hu.afterContinue
  | event hu => cases h; exact hu.endStep _
  | suspend hu => cases h; exact hu.framed.endStep _
  | raise hu => cases h; exact hu.fatal _
  | stop => cases h

/-- A `continue` that ends its STEP answers Progress (R431). -/
theorem afterContinue_ended {u : State} (hs : u.stepping = true) (ht : (afterContinue u).stepping = false) :
    (afterContinue u).status = Status.progress := by
  rw [afterContinue_stepping, hs, Bool.true_and, Bool.not_eq_false'] at ht
  rw [afterContinue_status, ht, cond_true]

/-- Of the outcomes that end a STEP, only a suspension leaves STATUS at NeedMoreInput (R431). -/
theorem Frames.waits {s t : State} {m : Micro} (hm : Frames s m) (h : finish m = .next t) (hs : s.stepping = true)
    (ht : t.stepping = false) (hst : t.status = 2#3) : ∃ u, Waits s u ∧ t = endStep 2#3 u := by
  cases hm with
  | cont _ hu =>
    cases h
    rw [afterContinue_ended (hu.trans hs) ht] at hst
    cases hst
  | @event e _ _ =>
    cases h
    cases e <;> cases hst
  | suspend hu => cases h; exact ⟨_, hu, rfl⟩
  | raise _ => cases h; cases hst
  | stop => cases h

/-- A step during a STEP keeps the frame. -/
theorem framed_step {s t : State} (h : step s = .next t) (hs : s.stepping = true) : Framed s t := by
  rcases step_of_stepping hs with ⟨-, he⟩ | ⟨-, he⟩ | ⟨m, hm, he⟩ <;> rw [he] at h
  · cases h; exact (Framed.refl s).rejectState
  · cases h; exact (Framed.refl s).fatal _
  · exact hm.frames.framed h

/-! A host command. -/

/-- What a command keeps: the tables and length arrays; the configuration unless its word is an OPEN's; the span unless its
word is an OPEN's or a SUPPLY's, which puts its own in place (R44, R83). -/
structure CommandFrame (c : Command) (s t : State) : Prop where
  tables : t.tLL = s.tLL ∧ t.tD = s.tD ∧ t.tCL = s.tCL ∧ t.clens = s.clens ∧ t.lens = s.lens
  config : SameConfig s t ∨ c.word.extractLsb' 0 3 = 0#3
  span : t.span = s.span ∨
    (c.word.extractLsb' 0 3 = 0#3 ∨ c.word.extractLsb' 0 3 = 2#3) ∧ t.span = c.span ∧ t.ipos = 0

/-- A command that writes none of these registers. -/
theorem CommandFrame.refl (c : Command) (s : State) : CommandFrame c s s :=
  ⟨⟨rfl, rfl, rfl, rfl, rfl⟩, .inl ⟨rfl, rfl, rfl, rfl⟩, .inl rfl⟩

theorem CommandFrame.answer {c : Command} {s t : State} (h : CommandFrame c s t) (r : Response) (n : Nat) :
    CommandFrame c s { t with response := r, draws := n } := { h with }

theorem CommandFrame.takeCommand {c : Command} {s t : State} {cs : List Command}
    (h : CommandFrame c { s with port := cs } t) : CommandFrame c s t := { h with }

theorem commandFrame_refuse (c : Command) (s : State) : CommandFrame c s (refuse s) := (CommandFrame.refl c s).answer _ _

theorem commandFrame_rejectState (c : Command) (s : State) : CommandFrame c s (rejectState s) :=
  { CommandFrame.refl c s with }

theorem commandFrame_fatal (c : Command) (s : State) (k : ErrKind) : CommandFrame c s (fatal k s) :=
  { CommandFrame.refl c s with }

theorem commandFrame_beginStep (c : Command) (s : State) : CommandFrame c s (beginStep s) where
  tables := ⟨ackFlush_tLL s, ackFlush_tD s, ackFlush_tCL s, ackFlush_clens s, ackFlush_lens s⟩
  config := .inl ⟨ackFlush_parseHeader s, ackFlush_nlenChecked s, ackFlush_rejectOversize s, ackFlush_vendor s⟩
  span := .inl (ackFlush_span s)

theorem readOut_commandFrame {c : Command} {s t : State} {index : BitVec 16} (h : execReadOut index s = .next t) :
    CommandFrame c s t := by
  unfold execReadOut at h
  split at h
  · split at h <;> cases h
    exact (CommandFrame.refl c s).answer _ _
  · cases h
    exact commandFrame_refuse c s

theorem IsCommand.commandFrame {c : Command} {i : Instr} (hi : IsCommand c i) {s t : State} (h : exec i s = .next t) :
    CommandFrame c s t := by
  have h0 := CommandFrame.refl c s
  cases hi with
  | openStream ph nla vnd ovr hw =>
    cases h
    split
    · exact commandFrame_refuse c s
    · exact { tables := h0.tables, config := .inr hw, span := .inr ⟨.inl hw, rfl, rfl⟩ }
  | step =>
    cases h
    split
    · exact commandFrame_rejectState c s
    · split
      · exact commandFrame_fatal c s _
      · exact commandFrame_beginStep c s
  | supply hw =>
    cases h
    split
    · exact commandFrame_rejectState c s
    · split
      · exact commandFrame_fatal c s _
      · exact { tables := h0.tables, config := h0.config, span := .inr ⟨.inr hw, rfl, rfl⟩ }
  | isFinal =>
    cases h
    split
    · exact commandFrame_refuse c s
    · split <;> exact h0.answer _ _
  | position =>
    cases h
    split
    · exact commandFrame_refuse c s
    · split <;> exact h0.answer _ _
  | readOut index => exact readOut_commandFrame h
  | readCrc =>
    cases h
    split
    · exact commandFrame_refuse c s
    · split <;> exact h0.answer _ _
  | reserved _ =>
    cases h
    exact commandFrame_refuse c s

/-- A step with no STEP in progress: the core is idle, or the first command keeps its frame. -/
theorem commandFrame_step {s t : State} (h : step s = .next t) (hs : s.stepping = false) :
    t = s ∨ ∃ c cs, s.port = c :: cs ∧ CommandFrame c s t := by
  rcases step_of_idle hs with he | ⟨c, cs, hp, he | ⟨i, hi, he⟩⟩ <;> rw [he] at h
  · cases h
    exact .inl rfl
  · cases h
    exact .inr ⟨c, cs, hp, (commandFrame_refuse c _).takeCommand⟩
  · exact .inr ⟨c, cs, hp, (hi.commandFrame h).takeCommand⟩

/-- No command writes a table or a length array (R83). -/
theorem tables_of_idle {s t : State} (h : step s = .next t) (hs : s.stepping = false) :
    t.tLL = s.tLL ∧ t.tD = s.tD ∧ t.tCL = s.tCL ∧ t.clens = s.clens ∧ t.lens = s.lens := by
  rcases commandFrame_step h hs with rfl | ⟨c, cs, -, hc⟩
  · exact ⟨rfl, rfl, rfl, rfl, rfl⟩
  · exact hc.tables

/-! The statements. -/

/-- Settles O50: by the frame of each micro-operation; no command writes a table. -/
theorem tableWrites : Obligations.TableWrites := by
  intro s t h
  cases hs : s.stepping with
  | true =>
    have hf := framed_step h hs
    refine ⟨fun hne => ⟨rfl, ?_⟩, fun hne => ⟨rfl, ?_⟩, fun hne => ⟨rfl, ?_⟩, fun hne => ⟨rfl, ?_⟩⟩ <;> by_contra hc
    · rw [not_or] at hc
      obtain ⟨hll, hd⟩ := hf.tables hc.1 hc.2
      exact hne.elim (absurd hll) (absurd hd)
    · exact hne (hf.tCL hc)
    · rw [not_or] at hc
      exact hne (hf.clens hc.1 hc.2)
    · rw [not_or] at hc
      exact hne (hf.lens hc.1 hc.2)
  | false =>
    obtain ⟨hll, hd, hcl, hclens, hlens⟩ := tables_of_idle h hs
    exact ⟨fun hne => hne.elim (absurd hll) (absurd hd), absurd hcl, absurd hclens, absurd hlens⟩

/-- One of the configuration registers differs only where not all are the same. -/
theorem SameConfig.absurd_ne {s t : State} (h : SameConfig s t) : ¬ (t.parseHeader ≠ s.parseHeader ∨
    t.nlenChecked ≠ s.nlenChecked ∨ t.rejectOversize ≠ s.rejectOversize ∨ t.vendor ≠ s.vendor) := by
  obtain ⟨h1, h2, h3, h4⟩ := h
  simp [h1, h2, h3, h4]

/-- Settles O51: no micro-operation writes the configuration or the span; of the commands, OPEN and SUPPLY. -/
theorem hostWrites : Obligations.HostWrites := by
  intro s t h
  cases hs : s.stepping with
  | true =>
    have hf := framed_step h hs
    obtain ⟨-, -, -, hspan, -, -⟩ := hf.input
    exact ⟨fun hne => absurd hne hf.config.absurd_ne, fun hne => absurd hspan hne⟩
  | false =>
    rcases commandFrame_step h hs with rfl | ⟨c, cs, hp, hc⟩
    · exact ⟨fun hne => absurd hne (SameConfig.absurd_ne ⟨rfl, rfl, rfl, rfl⟩), fun hne => absurd rfl hne⟩
    · exact ⟨fun hne => ⟨rfl, c, cs, hp, hc.config.resolve_left fun he => he.absurd_ne hne⟩,
        fun hne => ⟨rfl, c, cs, hp, hc.span.resolve_left hne⟩⟩

/-- Settles O52: READ and DECODE consume what they have pulled, and only their suspension answers NeedMoreInput. -/
theorem streamConsumed : Obligations.StreamConsumed := by
  intro s t h hs
  refine ⟨(framed_step h hs).input, fun hterm ht hst => ?_⟩
  rcases step_of_stepping hs with ⟨htag, -⟩ | ⟨-, he⟩ | ⟨m, hm, he⟩
  · rw [hterm] at htag
    cases htag
  · rw [he] at h
    cases h
    cases hst
  · rw [he] at h
    obtain ⟨u, ⟨n, hn, hav, rfl⟩, rfl⟩ := hm.frames.waits h hs ht hst
    exact ⟨n, hn, hav, rfl⟩

end Sys2Proof.Machine

/-! PROOF. Who writes WIN: PUT alone, in ST_COPY, SYM and COPY, at WPOS; WindowWrites. -/

namespace Sys2Proof.Machine

/-! The window frame of a micro-step. -/

/-- WIN and WPOS have one value in both states. -/
def SameWindow (s u : State) : Prop := u.win = s.win ∧ u.wpos = s.wpos

theorem SameWindow.refl (s : State) : SameWindow s s := ⟨rfl, rfl⟩

theorem SameWindow.afterRead (s : State) (n : Nat) : SameWindow s (afterRead n s) := ⟨rfl, rfl⟩

/-- What a micro-step from `s` leaves of WIN: all of it with WPOS, or, where the TAG of `s` lets a byte be put, all but the
element at WPOS (R82, R340). -/
inductive WindowFrame (s u : State) : Prop where
  | same (h : SameWindow s u)
  | put (ht : s.tag = Tag.stCopy ∨ s.tag = Tag.sym ∨ s.tag = Tag.copy) (v : Byte)
      (h : u.win = Memory.write s.win s.wpos.toNat v)

/-- A micro-step from `s` keeps the window frame, whatever its outcome. -/
inductive KeepsWindow (s : State) : Micro → Prop where
  | cont {u : State} (h : WindowFrame s u) : KeepsWindow s (.cont u)
  | event {e : Event} {u : State} (h : WindowFrame s u) : KeepsWindow s (.event e u)
  | suspend {u : State} (h : WindowFrame s u) : KeepsWindow s (.suspend u)
  | raise {k : ErrKind} {u : State} (h : WindowFrame s u) : KeepsWindow s (.raise k u)
  | stop {f : Fault} : KeepsWindow s (.stop f)

/-- An element that differs is the one at WPOS, under a TAG that lets a byte be put. -/
theorem WindowFrame.of_read_ne {s u : State} {a : Nat} (h : WindowFrame s u)
    (hne : Memory.read u.win a ≠ Memory.read s.win a) :
    (s.tag = Tag.stCopy ∨ s.tag = Tag.sym ∨ s.tag = Tag.copy) ∧ a = s.wpos.toNat := by
  cases h with
  | same h =>
    rw [h.1] at hne
    exact absurd rfl hne
  | put ht v h =>
    rw [h] at hne
    exact ⟨ht, by_contra fun ha => hne (read_write_other s.win s.wpos.toNat a v ha)⟩

theorem WindowFrame.trans_same {s u v : State} (h : WindowFrame s u) (huv : SameWindow u v) : WindowFrame s v := by
  obtain ⟨hwin, hwpos⟩ := huv
  cases h with
  | same h => exact .same ⟨hwin.trans h.1, hwpos.trans h.2⟩
  | put ht b h => exact .put ht b (hwin.trans h)

/-- What STEP does with the outcome writes neither WIN nor WPOS (R431). -/
theorem KeepsWindow.windowFrame {s t : State} {m : Micro} (hm : KeepsWindow s m) (h : finish m = .next t) :
    WindowFrame s t := by
  cases hm with
  | cont hu => cases h; exact hu.trans_same ⟨rfl, rfl⟩
  | event hu => cases h; exact hu.trans_same ⟨rfl, rfl⟩
  | suspend hu => cases h; exact hu.trans_same ⟨rfl, rfl⟩
  | raise hu => cases h; exact hu.trans_same ⟨rfl, rfl⟩
  | stop => cases h

/-! The bit reader, the symbol walker, BUILD and PUT. -/

theorem keepsWindow_peek {s : State} {n : Nat} (hn : n ≤ 16) {go : Nat → State → Micro}
    (hgo : ∀ v, KeepsWindow s (go v (pull n s))) : KeepsWindow s (withPeek n s go) := by
  rw [withPeek_eq n hn]
  split
  · exact .suspend (.same ⟨rfl, rfl⟩)
  · exact hgo _

theorem keepsWindow_read {s : State} {n : Nat} (hn : n ≤ 16) {go : Nat → State → Micro}
    (hgo : ∀ v, KeepsWindow s (go v (afterRead n s))) : KeepsWindow s (withRead n s go) :=
  keepsWindow_peek hn hgo

theorem keepsWindow_symbol {s : State} {t : Memory Entry} {go : Nat → State → Micro}
    (hgo : ∀ v k, KeepsWindow s (go v (afterRead k s))) : KeepsWindow s (withSymbol t s go) := by
  rcases walk_cases t s with ⟨k, e, i, -, -, -, -, -, hw⟩ | ⟨k, -, -, -, hw⟩ | ⟨k, -, -, hw⟩ | hw <;> rw [withSymbol, hw]
  · exact hgo _ k
  · exact .suspend (.same ⟨rfl, rfl⟩)
  · exact .raise (.same ⟨rfl, rfl⟩)
  · exact .stop

theorem keepsWindow_build {s u : State} (h : SameWindow s u) {b : Built} {go : State → Micro}
    (hgo : KeepsWindow s (go u)) : KeepsWindow s (withBuild b u go) := by
  rcases withBuild_cases b u go with ⟨r, -, hw⟩ | ⟨-, hw⟩ <;> rw [hw]
  · exact .raise (.same h)
  · exact hgo

/-- PUT writes WIN at WPOS, whether the window fills or not (R340). -/
theorem keepsWindow_put {s u : State} (ht : s.tag = Tag.stCopy ∨ s.tag = Tag.sym ∨ s.tag = Tag.copy)
    (h : SameWindow s u) (v : Byte) : KeepsWindow s (put v u) := by
  obtain ⟨hwin, hwpos⟩ := h
  have hput : (putByte v u).win = Memory.write s.win s.wpos.toNat v := by
    rw [putByte_win, hwin, hwpos]
  unfold put
  split
  · exact .stop
  · split
    · exact .event (.put ht v hput)
    · exact .cont (.put ht v hput)

/-! The micro-operations. -/

theorem keepsWindow_zhdr (s : State) : KeepsWindow s (zhdr s) := by
  refine keepsWindow_peek (by decide) fun v => ?_
  unfold zhdrAct
  split
  · split
    · exact .raise (.same ⟨rfl, rfl⟩)
    · exact .cont (.same ⟨rfl, rfl⟩)
  · exact .cont (.same ⟨rfl, rfl⟩)

theorem keepsWindow_bhdr (s : State) : KeepsWindow s (bhdr s) := by
  unfold bhdr
  split
  · exact .stop
  · refine keepsWindow_read (by decide) fun v => ?_
    unfold bhdrAct
    split
    · exact .cont (.same ⟨rfl, rfl⟩)
    · exact .cont (.same ⟨rfl, rfl⟩)
    · exact .cont (.same ⟨rfl, rfl⟩)
    · exact .raise (.same ⟨rfl, rfl⟩)

theorem keepsWindow_stLen (s : State) : KeepsWindow s (stLen s) := by
  refine keepsWindow_read (by decide) fun v => ?_
  unfold lenAct
  split
  · exact .cont (.same ⟨rfl, rfl⟩)
  · exact .cont (.same ⟨rfl, rfl⟩)

theorem keepsWindow_stNlen (s : State) : KeepsWindow s (stNlen s) := by
  refine keepsWindow_read (by decide) fun v => ?_
  unfold nlenAct
  split
  · exact .cont (.same ⟨rfl, rfl⟩)
  · exact .raise (.same ⟨rfl, rfl⟩)

theorem keepsWindow_stCopy {s : State} (ht : s.tag = Tag.stCopy) : KeepsWindow s (stCopy s) := by
  refine keepsWindow_read (by decide) fun v => ?_
  have h : SameWindow s (countDown Tag.blkEnd (afterRead 8 s)) := ⟨rfl, rfl⟩
  exact keepsWindow_put (.inl ht) h _

/-- FX_BUILD and DY_BUILD: an LL build, then a D build (R276, R307). -/
theorem keepsWindow_symbolTables (s : State) (ll dl : List Nat) (e : Bool) :
    KeepsWindow s (withBuild (build ll false) s fun s1 =>
      withBuild (build dl true) { s1 with tLL := builtTable (build ll false) s1.tLL } fun s2 =>
        .cont { s2 with tD := builtTable (build dl true) s2.tD, dEmpty := e, tag := Tag.sym }) := by
  have h : SameWindow s { s with tLL := builtTable (build ll false) s.tLL } := ⟨rfl, rfl⟩
  exact keepsWindow_build (.refl s) (keepsWindow_build h (.cont (.same ⟨rfl, rfl⟩)))

theorem keepsWindow_fxBuild (s : State) : KeepsWindow s (fxBuild s) :=
  keepsWindow_symbolTables s romFixedLL romFixedD false

theorem keepsWindow_dyBuild (s : State) : KeepsWindow s (dyBuild s) := by
  unfold dyBuild
  split
  · exact keepsWindow_symbolTables s _ _ _
  · exact .stop

theorem keepsWindow_dyHlit (s : State) : KeepsWindow s (dyHlit s) := by
  refine keepsWindow_read (by decide) fun v => ?_
  unfold hlitAct
  split
  · exact .raise (.same ⟨rfl, rfl⟩)
  · exact .cont (.same ⟨rfl, rfl⟩)

theorem keepsWindow_dyHdist (s : State) : KeepsWindow s (dyHdist s) := by
  refine keepsWindow_read (by decide) fun v => ?_
  unfold hdistAct
  split
  · exact .raise (.same ⟨rfl, rfl⟩)
  · exact .cont (.same ⟨rfl, rfl⟩)

theorem keepsWindow_dyHclen (s : State) : KeepsWindow s (dyHclen s) :=
  keepsWindow_read (by decide) fun _ => .cont (.same ⟨rfl, rfl⟩)

theorem keepsWindow_dyCll (s : State) : KeepsWindow s (dyCll s) := by
  refine keepsWindow_read (by decide) fun v => ?_
  unfold cllAct
  split
  · exact .stop
  · exact .cont (.same ⟨rfl, rfl⟩)

theorem keepsWindow_dyClbuild (s : State) : KeepsWindow s (dyClbuild s) := by
  unfold dyClbuild
  split
  · exact .stop
  · exact keepsWindow_build (.refl s) (.cont (.same ⟨rfl, rfl⟩))

theorem keepsWindow_dyLsym (s : State) : KeepsWindow s (dyLsym s) := by
  refine keepsWindow_symbol fun v k => ?_
  unfold lsymAct
  split
  · unfold clLenAct
    split
    · exact .stop
    · exact .cont (.same ⟨rfl, rfl⟩)
  · split
    · exact .stop
    · split
      · exact .raise (.same ⟨rfl, rfl⟩)
      · exact .cont (.same ⟨rfl, rfl⟩)

theorem keepsWindow_fillLens {s u : State} (h : SameWindow s u) (n : Nat) (v : BitVec 4) :
    KeepsWindow s (fillLens n v u) := by
  unfold fillLens
  split
  · exact .raise (.same h)
  · split
    · exact .stop
    · exact .cont (.same h)

theorem keepsWindow_dyLextra (s : State) : KeepsWindow s (dyLextra s) := by
  unfold dyLextra
  split
  · exact keepsWindow_read (by decide) fun _ => keepsWindow_fillLens (.afterRead s _) _ _
  · exact keepsWindow_read (by decide) fun _ => keepsWindow_fillLens (.afterRead s _) _ _
  · exact keepsWindow_read (by decide) fun _ => keepsWindow_fillLens (.afterRead s _) _ _
  · exact .stop

/-- SYM puts a literal's byte; every other symbol leaves WIN (R343). -/
theorem keepsWindow_sym {s : State} (ht : s.tag = Tag.sym) : KeepsWindow s (sym s) := by
  refine keepsWindow_symbol fun v k => ?_
  unfold symAct
  split
  · exact keepsWindow_put (.inr (.inl ht)) (.afterRead s k) _
  · split
    · exact .cont (.same ⟨rfl, rfl⟩)
    · split
      · exact .raise (.same ⟨rfl, rfl⟩)
      · exact .cont (.same ⟨rfl, rfl⟩)

theorem keepsWindow_lenExtra (s : State) : KeepsWindow s (lenExtra s) := by
  unfold lenExtra
  split
  · exact .stop
  next b e hrow =>
    refine keepsWindow_read (romLen_extra_le hrow) fun v => ?_
    unfold lengthAct
    split
    · exact .stop
    · exact .cont (.same ⟨rfl, rfl⟩)

theorem keepsWindow_dsym (s : State) : KeepsWindow s (dsym s) := by
  unfold dsym
  split
  · exact .raise (.same ⟨rfl, rfl⟩)
  · refine keepsWindow_symbol fun v k => ?_
    unfold dsymAct
    split
    · exact .raise (.same ⟨rfl, rfl⟩)
    · exact .cont (.same ⟨rfl, rfl⟩)

theorem keepsWindow_distExtra (s : State) : KeepsWindow s (distExtra s) := by
  unfold distExtra
  split
  · exact .stop
  next b e hrow =>
    refine keepsWindow_read (romDist_extra_le hrow) fun v => ?_
    unfold distanceAct
    split
    · exact .stop
    · split
      · exact .raise (.same ⟨rfl, rfl⟩)
      · exact .cont (.same ⟨rfl, rfl⟩)

/-- COPY reads its source byte, then puts it (R347). -/
theorem keepsWindow_copy {s : State} (ht : s.tag = Tag.copy) : KeepsWindow s (copy s) := by
  have h : SameWindow s (copyCount s) := ⟨rfl, rfl⟩
  unfold copy
  split
  · exact .stop
  · exact keepsWindow_put (.inr (.inr ht)) h _

theorem keepsWindow_blkEnd (s : State) : KeepsWindow s (blkEnd s) := by
  unfold blkEnd
  split
  · split
    · exact .event (.same ⟨rfl, rfl⟩)
    · exact .event (.same ⟨rfl, rfl⟩)
  · exact .event (.same ⟨rfl, rfl⟩)

theorem keepsWindow_fin (s : State) : KeepsWindow s (fin s) := .event (.same ⟨rfl, rfl⟩)

/-- The micro-operation that TAG selects keeps the window frame. -/
theorem Selects.keepsWindow {s : State} {m : Micro} (hm : Selects s m) : KeepsWindow s m := by
  cases hm with
  | zhdr _ => exact keepsWindow_zhdr s
  | bhdr _ => exact keepsWindow_bhdr s
  | stLen _ => exact keepsWindow_stLen s
  | stNlen _ => exact keepsWindow_stNlen s
  | stCopy ht => exact keepsWindow_stCopy ht
  | fxBuild _ => exact keepsWindow_fxBuild s
  | dyHlit _ => exact keepsWindow_dyHlit s
  | dyHdist _ => exact keepsWindow_dyHdist s
  | dyHclen _ => exact keepsWindow_dyHclen s
  | dyCll _ => exact keepsWindow_dyCll s
  | dyClbuild _ => exact keepsWindow_dyClbuild s
  | dyLsym _ => exact keepsWindow_dyLsym s
  | dyLextra _ => exact keepsWindow_dyLextra s
  | dyBuild _ => exact keepsWindow_dyBuild s
  | sym ht => exact keepsWindow_sym ht
  | lenExtra _ => exact keepsWindow_lenExtra s
  | dsym _ => exact keepsWindow_dsym s
  | distExtra _ => exact keepsWindow_distExtra s
  | copy ht => exact keepsWindow_copy ht
  | blkEnd _ => exact keepsWindow_blkEnd s
  | fin _ => exact keepsWindow_fin s

/-! Every step. -/

/-- A step during a STEP keeps the window frame. -/
theorem windowFrame_step {s t : State} (h : step s = .next t) (hs : s.stepping = true) : WindowFrame s t := by
  rcases step_of_stepping hs with ⟨-, he⟩ | ⟨-, he⟩ | ⟨m, hm, he⟩ <;> rw [he] at h
  · cases h; exact .same ⟨rfl, rfl⟩
  · cases h; exact .same ⟨rfl, rfl⟩
  · exact hm.keepsWindow.windowFrame h

theorem readOut_win {s t : State} {index : BitVec 16} (h : execReadOut index s = .next t) : t.win = s.win := by
  unfold execReadOut at h
  split at h
  · split at h <;> cases h
    rfl
  · cases h
    rfl

/-- No host command writes WIN; OPEN, and the flush STEP acknowledges, set WPOS and leave the bytes (R82, R341). -/
theorem IsCommand.win {c : Command} {i : Instr} (hi : IsCommand c i) {s t : State} (h : exec i s = .next t) :
    t.win = s.win := by
  cases hi with
  | openStream ph nla vnd ovr _ => cases h; split <;> rfl
  | step =>
    cases h
    split
    · rfl
    · split
      · rfl
      · exact ackFlush_win s
  | supply _ =>
    cases h
    split
    · rfl
    · split <;> rfl
  | isFinal =>
    cases h
    split
    · rfl
    · split <;> rfl
  | position =>
    cases h
    split
    · rfl
    · split <;> rfl
  | readOut index => exact readOut_win h
  | readCrc =>
    cases h
    split
    · rfl
    · split <;> rfl
  | reserved _ => cases h; rfl

/-- With no STEP in progress WIN is kept. -/
theorem win_of_idle {s t : State} (h : step s = .next t) (hs : s.stepping = false) : t.win = s.win := by
  rcases step_of_idle hs with he | ⟨c, cs, -, he | ⟨i, hi, he⟩⟩ <;> rw [he] at h
  · cases h; rfl
  · cases h; rfl
  · have hw := hi.win h
    exact hw

/-- Settles O49: by the window frame of each micro-operation; no command writes WIN. -/
theorem windowWrites : Obligations.WindowWrites := by
  intro s t a h hne
  cases hs : s.stepping with
  | true => exact ⟨rfl, (windowFrame_step h hs).of_read_ne hne⟩
  | false =>
    rw [win_of_idle h hs] at hne
    exact absurd rfl hne

end Sys2Proof.Machine

/-! PROOF. The decoder and the encoder are inverse to each other: DecodeOfEncode, EncodeOfDecode, DecodedWords. Each kind of
format (a fixed field, a symbol with extra bits, a command word) has one lemma per direction. -/

namespace Sys2Proof.Machine

/-- `w` is the value that the well-formed instruction `i` has in the format `f`. -/
def IsEncoding (f : Format) (w : Nat) (i : Instr) : Prop := WellFormed i = true ∧ formatOf i = f ∧ encode i = w

/-! Fixed fields (R122 to R126, R32). -/

/-- A fixed field decodes at every value of its width. -/
theorem fixedField_of_lt {f : Format} {n w : Nat} (mk : BitVec n → Instr) (h : w < 2 ^ n) :
    fixedField f n w mk = .ok (mk (BitVec.ofNat n w)) := if_pos h

theorem fixedField_toNat {f : Format} {n : Nat} (mk : BitVec n → Instr) (v : BitVec n) :
    fixedField f n v.toNat mk = .ok (mk v) := by
  rw [fixedField_of_lt mk v.isLt, BitVec.ofNat_toNat, BitVec.setWidth_eq]

/-- A fixed field accepts encodings alone when each of its instructions has its field as its value. -/
theorem isEncoding_fixedField {f : Format} {n w : Nat} {mk : BitVec n → Instr} {i : Instr}
    (hmk : ∀ v, IsEncoding f v.toNat (mk v)) (h : fixedField f n w mk = .ok i) : IsEncoding f w i := by
  unfold fixedField at h
  split at h
  case isTrue hw =>
    cases h
    simpa [Nat.mod_eq_of_lt hw] using hmk (BitVec.ofNat n w)
  case isFalse => cases h

/-- The ZHDR16 row of a V is the one whose class V is in (R420, R422, R425). -/
theorem isEncoding_decodeZhdr (v : BitVec 16) : IsEncoding .zhdr16 v.toNat (decodeZhdr v) := by
  unfold decodeZhdr
  split
  case isTrue hz =>
    split
    case isTrue hf => exact ⟨by simp [WellFormed, hz, hf], rfl, rfl⟩
    case isFalse hf => exact ⟨by simp [WellFormed, hz, hf], rfl, rfl⟩
  case isFalse hz => exact ⟨by simp [WellFormed, hz], rfl, rfl⟩

theorem isEncoding_decodeBhdr : ∀ h : BitVec 3, IsEncoding .bhdr3 h.toNat (decodeBhdr h) := by
  unfold IsEncoding
  decide

theorem isEncoding_decodeTag : ∀ t : BitVec 5, IsEncoding .tag5 t.toNat (decodeTag t) := by
  unfold IsEncoding
  decide

/-! Symbols with extra bits (R127 to R130). In a value the symbol stands below, its extra bits above. -/

theorem withExtra_of_lt {f : Format} {v e x : Nat} (mk : Nat → Instr) (h : x < 2 ^ e) :
    withExtra f v (some (e, mk)) x = .ok (mk x) := if_pos h

/-- A row is accepted with extra bits that fit its count, and with no others. -/
theorem withExtra_eq_ok {f : Format} {v x : Nat} {row : Option (Nat × (Nat → Instr))} {i : Instr} :
    withExtra f v row x = .ok i ↔ ∃ e mk, row = some (e, mk) ∧ x < 2 ^ e ∧ mk x = i := by
  cases row with
  | none => simp [withExtra]
  | some r =>
    obtain ⟨e, mk⟩ := r
    by_cases hx : x < 2 ^ e <;> simp [withExtra, hx]

/-- A symbol and its extra bits come apart again. -/
theorem symbol_extra_split {v k : Nat} (hv : v < k) (x : Nat) : (v + x * k) % k = v ∧ (v + x * k) / k = x := by
  constructor
  · rw [Nat.add_mul_mod_self_right, Nat.mod_eq_of_lt hv]
  · rw [Nat.add_mul_div_right _ _ (by omega), Nat.div_eq_of_lt hv, Nat.zero_add]

theorem decode_clsym {v : Nat} (hv : v < 32) (x : Nat) (span : List Byte) :
    decode .clsym (v + x * 32) span = decodeCl v x := by
  rw [decode, (symbol_extra_split hv x).1, (symbol_extra_split hv x).2]

theorem decode_llsym {v : Nat} (hv : v < 512) (x : Nat) (span : List Byte) :
    decode .llsym (v + x * 512) span = decodeLl v x := by
  rw [decode, (symbol_extra_split hv x).1, (symbol_extra_split hv x).2]

theorem decode_dsym {v : Nat} (hv : v < 32) (x : Nat) (span : List Byte) :
    decode .dsym (v + x * 32) span = decodeD v x := by
  rw [decode, (symbol_extra_split hv x).1, (symbol_extra_split hv x).2]

/-- A literal is a symbol below 256 with no extra bits (R128). -/
theorem decodeLl_lit {v : Nat} (hv : v < 256) (x : Nat) :
    decodeLl v x = withExtra .llsym v (some (0, fun _ => .lit (BitVec.ofNat 8 v))) x := if_pos hv

theorem decodeLl_of_le {v : Nat} (hv : 256 ≤ v) (x : Nat) : decodeLl v x = withExtra .llsym v llRows[v - 256]? x :=
  if_neg (by omega)

/-- A row whose extra bits are the operand decodes at every operand. -/
theorem withExtra_toNat {f : Format} {v n : Nat} (mk : BitVec n → Instr) (x : BitVec n) :
    withExtra f v (some (n, fun y => mk (BitVec.ofNat n y))) x.toNat = .ok (mk x) := by
  rw [withExtra_of_lt _ x.isLt, BitVec.ofNat_toNat, BitVec.setWidth_eq]

theorem decode_clsym_row {v n : Nat} {mk : BitVec n → Instr} (x : BitVec n) (hv : v < 32)
    (hr : clRows[v]? = some (n, fun y => mk (BitVec.ofNat n y))) :
    decode .clsym (v + x.toNat * 32) [] = .ok (mk x) := by
  rw [decode_clsym hv, decodeCl, hr, withExtra_toNat]

theorem decode_llsym_row {v n : Nat} {mk : BitVec n → Instr} (x : BitVec n) (hv : 256 ≤ v ∧ v < 512)
    (hr : llRows[v - 256]? = some (n, fun y => mk (BitVec.ofNat n y))) :
    decode .llsym (v + x.toNat * 512) [] = .ok (mk x) := by
  rw [decode_llsym hv.2, decodeLl_of_le hv.1, hr, withExtra_toNat]

theorem decode_dsym_row {v n : Nat} {mk : BitVec n → Instr} (x : BitVec n) (hv : v < 32)
    (hr : dRows[v]? = some (n, fun y => mk (BitVec.ofNat n y))) :
    decode .dsym (v + x.toNat * 32) [] = .ok (mk x) := by
  rw [decode_dsym hv, decodeD, hr, withExtra_toNat]

theorem decode_llsym_lit {v : Nat} (hv : v < 256) (span : List Byte) :
    decode .llsym v span = .ok (.lit (BitVec.ofNat 8 v)) := by
  have h := decode_llsym (show v < 512 by omega) 0 span
  rw [Nat.zero_mul, Nat.add_zero] at h
  rw [h, decodeLl_lit hv, withExtra_of_lt _ (by decide)]

/-- Every instruction of the row of symbol `v` has, for extra bits `x` that fit, the value v + x · k in the format. -/
def RowEncodes (f : Format) (k v : Nat) (r : Nat × (Nat → Instr)) : Prop :=
  ∀ x, x < 2 ^ r.1 → IsEncoding f (v + x * k) (r.2 x)

/-- A row without extra bits. -/
theorem RowEncodes.const {f : Format} {k v : Nat} {i : Instr} (h : IsEncoding f v i) :
    RowEncodes f k v (0, fun _ => i) := by
  intro x hx
  obtain rfl : x = 0 := by simpa using hx
  simpa using h

/-- A row whose extra bits are the operand. -/
theorem RowEncodes.bits {f : Format} {k v n : Nat} {mk : BitVec n → Instr}
    (h : ∀ x : BitVec n, IsEncoding f (v + x.toNat * k) (mk x)) :
    RowEncodes f k v (n, fun y => mk (BitVec.ofNat n y)) := by
  intro x hx
  simpa [Nat.mod_eq_of_lt (show x < 2 ^ n from hx)] using h (BitVec.ofNat n x)

theorem clRows_encodes {v : Nat} {r : Nat × (Nat → Instr)} (h : clRows[v]? = some r) : RowEncodes .clsym 32 v r := by
  have hv : v < 19 := (List.getElem?_eq_some_iff.1 h).1
  interval_cases v <;> cases h
  iterate 16 exact .const ⟨rfl, rfl, rfl⟩
  all_goals exact .bits fun _ => ⟨rfl, rfl, rfl⟩

theorem llRows_encodes {v : Nat} {r : Nat × (Nat → Instr)} (h : llRows[v]? = some r) :
    RowEncodes .llsym 512 (256 + v) r := by
  have hv : v < 32 := (List.getElem?_eq_some_iff.1 h).1
  interval_cases v <;> cases h
  iterate 9 exact .const ⟨rfl, rfl, rfl⟩
  iterate 20 exact .bits fun _ => ⟨rfl, rfl, rfl⟩
  all_goals exact .const ⟨rfl, rfl, rfl⟩

theorem dRows_encodes {v : Nat} {r : Nat × (Nat → Instr)} (h : dRows[v]? = some r) : RowEncodes .dsym 32 v r := by
  have hv : v < 32 := (List.getElem?_eq_some_iff.1 h).1
  interval_cases v <;> cases h
  iterate 4 exact .const ⟨rfl, rfl, rfl⟩
  iterate 26 exact .bits fun _ => ⟨rfl, rfl, rfl⟩
  all_goals exact .const ⟨rfl, rfl, rfl⟩

theorem isEncoding_clsym {v x : Nat} {i : Instr} (h : decodeCl v x = .ok i) : IsEncoding .clsym (v + x * 32) i := by
  obtain ⟨e, mk, hr, hx, rfl⟩ := withExtra_eq_ok.1 h
  exact clRows_encodes hr x hx

theorem isEncoding_llsym {v x : Nat} {i : Instr} (h : decodeLl v x = .ok i) : IsEncoding .llsym (v + x * 512) i := by
  by_cases hv : v < 256
  · rw [decodeLl_lit hv] at h
    obtain ⟨e, mk, hr, hx, rfl⟩ := withExtra_eq_ok.1 h
    cases hr
    refine RowEncodes.const ⟨rfl, rfl, ?_⟩ x hx
    exact (BitVec.toNat_ofNat v 8).trans (Nat.mod_eq_of_lt hv)
  · rw [decodeLl_of_le (by omega)] at h
    obtain ⟨e, mk, hr, hx, rfl⟩ := withExtra_eq_ok.1 h
    have hrow := llRows_encodes hr x hx
    rwa [Nat.add_sub_cancel' (by omega)] at hrow

theorem isEncoding_dsym {v x : Nat} {i : Instr} (h : decodeD v x = .ok i) : IsEncoding .dsym (v + x * 32) i := by
  obtain ⟨e, mk, hr, hx, rfl⟩ := withExtra_eq_ok.1 h
  exact dRows_encodes hr x hx

/-! Command words (R135). -/

/-- A field of a word, as a number. -/
theorem toNat_field {m : Nat} (w : BitVec m) (s n : Nat) : (w.extractLsb' s n).toNat = w.toNat / 2 ^ s % 2 ^ n := by
  rw [BitVec.extractLsb'_toNat, Nat.shiftRight_eq_div_pow]

/-- A bit of a word, as a number. -/
theorem toNat_bit (w : Word32) (i : Nat) : (w.getLsbD i).toNat = w.toNat / 2 ^ i % 2 := Nat.toNat_testBit _ _

/-- No bit at `s` or above is set. -/
theorem shiftRight_eq_zero_iff (w : Word32) (s : Nat) : w >>> s = 0#32 ↔ w.toNat < 2 ^ s := by
  rw [← BitVec.toNat_inj, BitVec.toNat_ushiftRight, Nat.shiftRight_eq_div_pow]
  exact Nat.div_eq_zero_iff_lt (by positivity)

theorem decode_cmd32 {w : Nat} (h : w < 2 ^ 32) (span : List Byte) :
    decode .cmd32 w span = decodeCmd (BitVec.ofNat 32 w) span := if_pos h

/-- The word of an OPEN shows its four flags (R432). -/
theorem openWord_fields : ∀ ph nla vnd ovr : Bool, ∀ w : Word32,
    w = BitVec.ofNat 32 (ph.toNat * 8 + nla.toNat * 16 + vnd.toNat * 32 + ovr.toNat * 64) →
    (w.extractLsb' 0 3).toNat = 0 ∧ w >>> 7 = 0#32 ∧
      w.getLsbD 3 = ph ∧ w.getLsbD 4 = nla ∧ w.getLsbD 5 = vnd ∧ w.getLsbD 6 = ovr := by
  simp only [forall_eq]
  decide

theorem decode_cmdOpen (span : List Byte) (ph nla vnd ovr : Bool) :
    decode .cmd32 (encode (.cmdOpen span ph nla vnd ovr)) span = .ok (.cmdOpen span ph nla vnd ovr) := by
  obtain ⟨hc, hz, h3, h4, h5, h6⟩ := openWord_fields ph nla vnd ovr _ rfl
  rw [decode_cmd32 (Laws.EncodeFits.cmdOpen span ph nla vnd ovr), decodeCmd]
  simp only [encode, hc, hz, if_true, h3, h4, h5, h6]

theorem decode_cmdReadOut (index : BitVec 16) (span : List Byte) :
    decode .cmd32 (encode (.cmdReadOut index)) span = .ok (.cmdReadOut index) := by
  have hi := index.isLt
  have hw : (BitVec.ofNat 32 (5 + index.toNat * 65536)).toNat = 5 + index.toNat * 65536 := by
    rw [BitVec.toNat_ofNat]; omega
  have hc : ((BitVec.ofNat 32 (5 + index.toNat * 65536)).extractLsb' 0 3).toNat = 5 := by
    rw [toNat_field, hw]; omega
  have hz : (BitVec.ofNat 32 (5 + index.toNat * 65536)).extractLsb' 3 13 = 0#13 := by
    apply BitVec.eq_of_toNat_eq
    rw [toNat_field, hw, BitVec.toNat_ofNat]; omega
  have hx : (BitVec.ofNat 32 (5 + index.toNat * 65536)).extractLsb' 16 16 = index := by
    apply BitVec.eq_of_toNat_eq
    rw [toNat_field, hw]; omega
  rw [decode_cmd32 (Laws.EncodeFits.cmdReadOut index), decodeCmd]
  simp only [encode, hc, hz, hx, if_true]

theorem decode_cmdReserved (rest : BitVec 29) (span : List Byte) :
    decode .cmd32 (encode (.cmdReserved rest)) span = .ok (.cmdReserved rest) := by
  have hr := rest.isLt
  have hw : (BitVec.ofNat 32 (7 + rest.toNat * 8)).toNat = 7 + rest.toNat * 8 := by
    rw [BitVec.toNat_ofNat]; omega
  have hc : ((BitVec.ofNat 32 (7 + rest.toNat * 8)).extractLsb' 0 3).toNat = 7 := by
    rw [toNat_field, hw]; omega
  have hx : (BitVec.ofNat 32 (7 + rest.toNat * 8)).extractLsb' 3 29 = rest := by
    apply BitVec.eq_of_toNat_eq
    rw [toNat_field, hw]; omega
  rw [decode_cmd32 (Laws.EncodeFits.cmdReserved rest), decodeCmd]
  simp only [encode, hc, hx]

/-- A command word that decodes is the encoding of its command: no bit is set but those of its fields (R135, R439). -/
theorem isEncoding_decodeCmd {w : Word32} {span : List Byte} {i : Instr} (h : decodeCmd w span = .ok i) :
    IsEncoding .cmd32 w.toNat i := by
  have hcode := toNat_field w 0 3
  unfold decodeCmd at h
  simp only [shiftRight_eq_zero_iff] at h
  split at h
  case h_1 hc =>
    split at h <;> cases h
    refine ⟨rfl, rfl, ?_⟩
    simp only [encode, toNat_bit]
    omega
  case h_2 hc => split at h <;> cases h; exact ⟨rfl, rfl, by simp only [encode]; omega⟩
  case h_3 hc => split at h <;> cases h; exact ⟨rfl, rfl, by simp only [encode]; omega⟩
  case h_4 hc => split at h <;> cases h; exact ⟨rfl, rfl, by simp only [encode]; omega⟩
  case h_5 hc => split at h <;> cases h; exact ⟨rfl, rfl, by simp only [encode]; omega⟩
  case h_6 hc =>
    split at h
    case isTrue hz =>
      cases h
      have hmid : w.toNat / 2 ^ 3 % 2 ^ 13 = 0 := by rw [← toNat_field, hz]; rfl
      refine ⟨rfl, rfl, ?_⟩
      simp only [encode, toNat_field]
      omega
    case isFalse => cases h
  case h_7 hc => split at h <;> cases h; exact ⟨rfl, rfl, by simp only [encode]; omega⟩
  case h_8 h0 h1 h2 h3 h4 h5 h6 =>
    cases h
    refine ⟨rfl, rfl, ?_⟩
    simp only [imp_false] at h0 h1 h2 h3 h4 h5 h6
    simp only [encode, toNat_field]
    omega

/-! The statements. -/

/-- Settles O55: by evaluation. -/
theorem decodedWords : Obligations.DecodedWords := ⟨rfl, rfl, rfl, rfl, rfl, rfl, rfl, rfl, rfl, rfl⟩

/-- Settles O54: the accepted values of each format are encodings, by the lemma of its kind. -/
theorem encodeOfDecode : Obligations.EncodeOfDecode := by
  intro f w span i h
  change IsEncoding f w i
  cases f with
  | zhdr16 => exact isEncoding_fixedField isEncoding_decodeZhdr h
  | bhdr3 => exact isEncoding_fixedField isEncoding_decodeBhdr h
  | storedLen | storedNlen | storedByte | dynHlit | dynHdist | dynHclen | dynCll =>
    exact isEncoding_fixedField (fun _ => ⟨rfl, rfl, rfl⟩) h
  | clsym =>
    have hi := isEncoding_clsym h
    rwa [Nat.mod_add_div'] at hi
  | llsym =>
    have hi := isEncoding_llsym h
    rwa [Nat.mod_add_div'] at hi
  | dsym =>
    have hi := isEncoding_dsym h
    rwa [Nat.mod_add_div'] at hi
  | cmd32 =>
    rw [decode] at h
    split at h
    case isTrue hw =>
      have hi := isEncoding_decodeCmd h
      rwa [BitVec.toNat_ofNat, Nat.mod_eq_of_lt hw] at hi
    case isFalse => cases h
  | tag5 => exact isEncoding_fixedField isEncoding_decodeTag h

/-- Settles O53: by the kind of the row; a row without operands decodes by evaluation. -/
theorem decodeOfEncode : Obligations.DecodeOfEncode := by
  intro i hi
  cases i with
  | zlibHdr v | zlibFdict v | rawNoHdr v =>
    refine (fixedField_toNat decodeZhdr v).trans ?_
    simp only [WellFormed, Bool.and_eq_true, Bool.not_eq_true'] at hi
    simp [decodeZhdr, hi]
  | blkStored final | blkFixed final | blkDynamic final | blkReserved final => cases final <;> rfl
  | len16 v | nlen16 v | storedByte v | hlit5 v | hdist5 v | hclen4 v | cll3 v => exact fixedField_toNat _ v
  | rep16 x | zero17 x | zero18 x => exact decode_clsym_row x (by decide) rfl
  | lit b => exact (decode_llsym_lit b.isLt []).trans (by simp)
  | len265 x | len266 x | len267 x | len268 x | len269 x | len270 x | len271 x | len272 x | len273 x | len274 x
  | len275 x | len276 x | len277 x | len278 x | len279 x | len280 x | len281 x | len282 x | len283 x | len284 x =>
    exact decode_llsym_row x (by decide) rfl
  | dist4 x | dist5 x | dist6 x | dist7 x | dist8 x | dist9 x | dist10 x | dist11 x | dist12 x | dist13 x | dist14 x
  | dist15 x | dist16 x | dist17 x | dist18 x | dist19 x | dist20 x | dist21 x | dist22 x | dist23 x | dist24 x
  | dist25 x | dist26 x | dist27 x | dist28 x | dist29 x =>
    exact decode_dsym_row x (by decide) rfl
  | cmdOpen span ph nla vnd ovr => exact decode_cmdOpen span ph nla vnd ovr
  | cmdSupply span => exact (decode_cmd32 (by decide : 2 < 2 ^ 32) span).trans rfl
  | cmdReadOut index => exact decode_cmdReadOut index []
  | cmdReserved rest => exact decode_cmdReserved rest []
  | tagReserved low =>
    have h : ∀ low : BitVec 3, decode .tag5 (24 + low.toNat) [] = .ok (.tagReserved low) := by decide
    exact h low
  | _ => rfl

end Sys2Proof.Machine

/-! PROOF. What the rows of the symbol formats do with their extra bits, and the pseudo-instruction MATCH: MatchExpands. -/

namespace Sys2Proof.Machine

/-! Decoder rows against ROM rows (R127, R129, R130). -/

/-- Every instruction of a row, `x` being its extra bits, runs as `act x`. -/
def RowActs (act : Nat → State → Micro) (r : Nat × (Nat → Instr)) : Prop :=
  ∀ x, x < 2 ^ r.1 → ∀ s, exec (r.2 x) s = finish (act x s)

/-- A row without extra bits. -/
theorem RowActs.const {act : Nat → State → Micro} {i : Instr} (h : ∀ s, exec i s = finish (act 0 s)) :
    RowActs act (0, fun _ => i) := by
  intro x hx
  obtain rfl : x = 0 := by simpa using hx
  exact h

/-- A row whose extra bits are the operand. -/
theorem RowActs.bits {act : Nat → State → Micro} {n : Nat} {mk : BitVec n → Instr}
    (h : ∀ (x : BitVec n) (s : State), exec (mk x) s = finish (act x.toNat s)) :
    RowActs act (n, fun y => mk (BitVec.ofNat n y)) := by
  intro x hx s
  simpa [Nat.mod_eq_of_lt (show x < 2 ^ n from hx)] using h (BitVec.ofNat n x) s

/-- The decoder's row of a length symbol has the count of extra bits of ROM_LEN, and adds them to its base (R129). -/
theorem llRows_lengthAct {v : Nat} (h1 : 257 ≤ v) (h2 : v ≤ 285) :
    ∃ b e mk, romLen v = some (b, e) ∧ llRows[v - 256]? = some (e, mk) ∧ RowActs (lengthAct v) (e, mk) := by
  interval_cases v
  iterate 8 exact ⟨_, _, _, rfl, rfl, .const fun _ => rfl⟩
  iterate 20 exact ⟨_, _, _, rfl, rfl, .bits fun _ _ => rfl⟩
  exact ⟨_, _, _, rfl, rfl, .const fun _ => rfl⟩

/-- The decoder's row of a distance symbol has the count of extra bits of ROM_DIST, and adds them to its base (R130). -/
theorem dRows_distanceAct {v : Nat} (h : v < 30) :
    ∃ b e mk, romDist v = some (b, e) ∧ dRows[v]? = some (e, mk) ∧ RowActs (distanceAct v) (e, mk) := by
  interval_cases v
  iterate 4 exact ⟨_, _, _, rfl, rfl, .const fun _ => rfl⟩
  iterate 26 exact ⟨_, _, _, rfl, rfl, .bits fun _ _ => rfl⟩

/-- ROM_LEN has rows for the symbols 257 to 285 alone. -/
theorem romLen_range {v b e : Nat} (h : romLen v = some (b, e)) : 257 ≤ v ∧ v ≤ 285 := by
  unfold romLen at h
  split at h
  case isTrue => cases h
  case isFalse hv =>
    have hlt : v - 257 < 29 := (List.getElem?_eq_some_iff.1 h).1
    omega

/-- ROM_DIST has rows for the symbols 0 to 29 alone. -/
theorem romDist_range {v b e : Nat} (h : romDist v = some (b, e)) : v < 30 :=
  (List.getElem?_eq_some_iff.1 h).1

/-- A length symbol decodes with every X its row of ROM_LEN admits, to an instruction that leaves MLEN = LBASE + X. -/
theorem decodeLl_length {v b e x : Nat} (h : romLen v = some (b, e)) (hx : x < 2 ^ e) :
    ∃ i, decodeLl v x = .ok i ∧ ∀ s, exec i s = finish (lengthAct v x s) := by
  obtain ⟨h257, h285⟩ := romLen_range h
  obtain ⟨b', e', mk, hrom, hrow, hact⟩ := llRows_lengthAct h257 h285
  obtain ⟨rfl, rfl⟩ : b' = b ∧ e' = e := by simpa [hrom] using h
  refine ⟨mk x, ?_, hact x hx⟩
  rw [decodeLl_of_le (by omega), hrow, withExtra_of_lt mk hx]

/-- A distance symbol decodes with every X its row of ROM_DIST admits, to an instruction that leaves DIST = DBASE + X. -/
theorem decodeD_distance {v b e x : Nat} (h : romDist v = some (b, e)) (hx : x < 2 ^ e) :
    ∃ i, decodeD v x = .ok i ∧ ∀ s, exec i s = finish (distanceAct v x s) := by
  obtain ⟨b', e', mk, hrom, hrow, hact⟩ := dRows_distanceAct (romDist_range h)
  obtain ⟨rfl, rfl⟩ : b' = b ∧ e' = e := by simpa [hrom] using h
  refine ⟨mk x, ?_, hact x hx⟩
  rw [decodeD, hrow, withExtra_of_lt mk hx]

theorem lengthAct_of_row {v b e : Nat} (h : romLen v = some (b, e)) (x : Nat) (s : State) :
    lengthAct v x s = .cont { s with cur := BitVec.ofNat 9 v, mlen := BitVec.ofNat 9 (b + x), tag := Tag.dsym } := by
  rw [lengthAct, h]

/-- A distance within HIST begins the copy (R346). -/
theorem distanceAct_of_row {v b e x : Nat} {s : State} (h : romDist v = some (b, e)) (hx : b + x ≤ s.hist.toNat) :
    distanceAct v x s = .cont { s with
      dsym := BitVec.ofNat 5 v, dist := BitVec.ofNat 16 (b + x), rem := BitVec.ofNat 16 s.mlen.toNat, tag := Tag.copy } := by
  rw [distanceAct, h]
  simp only [if_neg (show ¬ s.hist.toNat < b + x by omega), BitVec.ofNat_toNat]

/-! The largest symbol whose base is at most n (R138). -/

/-- The base of the first row, `hi` after the last one. -/
def firstBase (hi : Nat) : List (Nat × Nat) → Nat
  | [] => hi
  | r :: _ => r.1

/-- The bases rise towards `hi`, and the 2^e values from each base on reach the next one. -/
def Covers (hi : Nat) : List (Nat × Nat) → Prop
  | [] => True
  | (b, e) :: rs => b < firstBase hi rs ∧ firstBase hi rs ≤ b + 2 ^ e ∧ Covers hi rs

/-- No base is at most a number below the first one. -/
theorem Covers.countP_eq_zero {hi n : Nat} {rows : List (Nat × Nat)} (hc : Covers hi rows) (hn : n < firstBase hi rows) :
    rows.countP (fun r => decide (r.1 ≤ n)) = 0 := by
  induction rows with
  | nil => rfl
  | cons r rs ih =>
    obtain ⟨hnext, -, hrest⟩ := hc
    have hr : n < r.1 := hn
    rw [List.countP_cons_of_neg (by simpa using hr), ih hrest (by omega)]

/-- The last of the rows whose base is at most n has n among its values. -/
theorem Covers.row {hi n : Nat} {rows : List (Nat × Nat)} (hc : Covers hi rows) (hlo : firstBase hi rows ≤ n) (hn : n < hi) :
    ∃ k b e, rows.countP (fun r => decide (r.1 ≤ n)) = k + 1 ∧ rows[k]? = some (b, e) ∧ b ≤ n ∧ n < b + 2 ^ e := by
  induction rows with
  | nil => exact absurd hlo (not_le.2 hn)
  | cons r rs ih =>
    obtain ⟨hnext, hreach, hrest⟩ := hc
    have hr : r.1 ≤ n := hlo
    rw [List.countP_cons_of_pos (by simpa using hr)]
    by_cases hlast : n < firstBase hi rs
    · exact ⟨0, r.1, r.2, by rw [hrest.countP_eq_zero hlast], rfl, hr, by omega⟩
    · obtain ⟨k, b, e, hk, hrow, hb⟩ := ih hrest (by omega)
      exact ⟨k + 1, b, e, by rw [hk], hrow, hb⟩

theorem romLenRows_covers : Covers 259 romLenRows := by simp [Covers, firstBase, romLenRows]

theorem romDistRows_covers : Covers 32769 romDistRows := by simp [Covers, firstBase, romDistRows]

/-- The length symbol of MATCH has a row of ROM_LEN that reaches the length. -/
theorem matchLenSymbol_row {len : Nat} (h3 : 3 ≤ len) (h258 : len ≤ 258) :
    ∃ b e, romLen (matchLenSymbol len) = some (b, e) ∧ b ≤ len ∧ len < b + 2 ^ e := by
  obtain ⟨k, b, e, hk, hrow, hb⟩ := romLenRows_covers.row h3 (by omega)
  refine ⟨b, e, ?_, hb⟩
  rw [matchLenSymbol, hk, romLen, if_neg (by omega), show 256 + (k + 1) - 257 = k by omega, hrow]

/-- The distance symbol of MATCH has a row of ROM_DIST that reaches the distance. -/
theorem matchDistSymbol_row {dist : Nat} (h1 : 1 ≤ dist) (h32768 : dist ≤ 32768) :
    ∃ d b e, matchDistSymbol dist = some d ∧ romDist d = some (b, e) ∧ b ≤ dist ∧ dist < b + 2 ^ e := by
  obtain ⟨k, b, e, hk, hrow, hb⟩ := romDistRows_covers.row h1 (by omega)
  exact ⟨k, b, e, by rw [matchDistSymbol, hk], hrow, hb⟩

/-- The tokens of a MATCH whose symbols have rows (R138). -/
theorem matchTokens_of_rows {len dist d lb le db de : Nat} {li di : Instr} (hd : matchDistSymbol dist = some d)
    (hl : romLen (matchLenSymbol len) = some (lb, le)) (hr : romDist d = some (db, de))
    (hli : decodeLl (matchLenSymbol len) (len - lb) = .ok li) (hdi : decodeD d (dist - db) = .ok di) :
    matchTokens len dist = some (li, di) := by
  simp only [matchTokens, hd, hl, hr, hli, hdi]

/-- A length of 258 is the token LEN_285, not LEN_284 with 31 (R138). -/
theorem matchLen_258 {lb le : Nat} {i : Instr} (hl : romLen (matchLenSymbol 258) = some (lb, le))
    (hi : decodeLl (matchLenSymbol 258) (258 - lb) = .ok i) : i = .len285 := by
  cases hl
  cases hi
  rfl

/-- Settles O56: the last row whose base is at most a length (a distance) reaches it, and its token adds the difference to
the base. -/
theorem matchExpands : Obligations.MatchExpands := by
  intro len dist h3 h258 h1 h32768
  obtain ⟨lb, le, hl, hlb, hle⟩ := matchLenSymbol_row h3 h258
  obtain ⟨d, db, de, hd, hr, hdb, hde⟩ := matchDistSymbol_row h1 h32768
  obtain ⟨li, hli, hlexec⟩ := decodeLl_length hl (show len - lb < 2 ^ le by omega)
  obtain ⟨di, hdi, hdexec⟩ := decodeD_distance hr (show dist - db < 2 ^ de by omega)
  refine ⟨li, di, BitVec.ofNat 9 (matchLenSymbol len), BitVec.ofNat 5 d, matchTokens_of_rows hd hl hr hli hdi, ?_, ?_, ?_⟩
  · rintro rfl
    exact matchLen_258 hl hli
  · intro s
    rw [hlexec, lengthAct_of_row hl, Nat.add_sub_cancel' hlb]
    rfl
  · intro s hs
    rw [hdexec, distanceAct_of_row hr (by omega), Nat.add_sub_cancel' hdb]
    rfl

end Sys2Proof.Machine

/-! PROOF. A token row does what its micro-operation does on the same bits: TokensMatchMicroSteps. -/

namespace Sys2Proof.Machine

/-! The bit reader with the bits at hand. -/

theorem withPeek_of_le {n : Nat} (hn : n ≤ 16) {s : State} (h : n ≤ avail s) (go : Nat → State → Micro) :
    withPeek n s go = go (streamValue n s) (pull n s) := by
  rw [withPeek_eq n hn, if_neg (by omega)]

theorem withRead_of_le {n : Nat} (hn : n ≤ 16) {s : State} (h : n ≤ avail s) (go : Nat → State → Micro) :
    withRead n s go = go (streamValue n s) (afterRead n s) := by
  rw [withRead_eq n hn, if_neg (by omega)]

theorem withSymbol_of_followCode {t : Memory Entry} {code rest : List Bool} {s : State} {v : Nat}
    (hs : streamBits s = code ++ rest) (hl : code.length ≤ 15) (hf : followCode t 0 code = some v)
    (go : Nat → State → Micro) : withSymbol t s go = go v (afterRead code.length s) := by
  rw [withSymbol, walk_of_followCode t code rest s v hs hl hf]

/-! The zlib-style header (R420, R421). -/

theorem exec_decodeZhdr (v : BitVec 16) (s : State) : exec (decodeZhdr v) s = finish (zhdrAct v s) := by
  unfold decodeZhdr zhdrAct
  split
  · split <;> rfl
  · rfl

/-- The next 16 bits are two bytes, the first one low. -/
theorem streamValue_16 {s : State} (h : 16 ≤ avail s) : streamValue 16 s =
    bitsValue ((streamBits s).take 8) + 256 * bitsValue (((streamBits s).drop 8).take 8) := by
  have h8 : ((streamBits s).take 8).length = 8 := by
    rw [List.length_take]
    exact min_eq_left (le_trans (by decide) h)
  rw [streamValue, show 16 = 8 + 8 from rfl, List.take_add, bitsValue_append, h8]
  rfl

/-- V has the first byte high (R421). -/
theorem headerValue_bytes {a b : Nat} (ha : a < 256) (hb : b < 256) :
    headerValue (a + 256 * b) = BitVec.ofNat 16 (a * 256 + b) := by
  have hp : (BitVec.ofNat 16 (a + 256 * b)).toNat = a + 256 * b := by rw [BitVec.toNat_ofNat]; omega
  have hlow : ((BitVec.ofNat 16 (a + 256 * b)).extractLsb' 0 8).toNat = a := by
    rw [toNat_field, hp]; omega
  have hhigh : ((BitVec.ofNat 16 (a + 256 * b)).extractLsb' 8 8).toNat = b := by
    rw [toNat_field, hp]; omega
  apply BitVec.eq_of_toNat_eq
  rw [headerValue, BitVec.toNat_append, ← Nat.shiftLeft_add_eq_or_of_lt (BitVec.isLt _), hlow, hhigh, Nat.shiftLeft_eq,
    BitVec.toNat_ofNat]
  omega

theorem zhdr_matches {s : State} (h : 16 ≤ avail s) : ∃ i,
    decode .zhdr16 (bitsValue ((streamBits s).take 8) * 256 + bitsValue (((streamBits s).drop 8).take 8)) [] = .ok i ∧
    exec .tagZhdr s = exec i (pull 16 s) := by
  have byte_lt : ∀ l : List Bool, bitsValue (l.take 8) < 256 := fun l =>
    lt_of_lt_of_le (bitsValue_lt _) (Nat.pow_le_pow_right (by decide) (List.length_take_le 8 l))
  have ha := byte_lt (streamBits s)
  have hb := byte_lt ((streamBits s).drop 8)
  refine ⟨_, fixedField_of_lt decodeZhdr (by omega), ?_⟩
  rw [exec_decodeZhdr, ← headerValue_bytes ha hb, ← streamValue_16 h]
  exact congrArg finish (withPeek_of_le le_rfl h _)

/-! Fixed fields (R270, R272 to R274, R300 to R303). -/

theorem exec_decodeBhdr (h : BitVec 3) (s : State) : exec (decodeBhdr h) s = finish (bhdrAct h s) := by
  unfold decodeBhdr bhdrAct
  generalize (h.extractLsb' 1 2).toNat = btype
  obtain _ | _ | _ | _ := btype <;> rfl

/-- A micro-operation that reads a field and goes on with `act` matches the rows of that field when they run as `act`. -/
theorem field_matches {m : Instr} {f : Format} {n : Nat} {s : State} (mk : BitVec n → Instr)
    (act : BitVec n → State → Micro) (hn : n ≤ 16) (h : n ≤ avail s)
    (hf : ∀ w, decode f w [] = fixedField f n w mk)
    (hm : exec m s = finish (withRead n s fun v s1 => act (BitVec.ofNat n v) s1))
    (hrow : ∀ v t, exec (mk v) t = finish (act v t)) :
    ∃ i, decode f (streamValue n s) [] = .ok i ∧ exec m s = exec i (afterRead n s) := by
  refine ⟨_, (hf _).trans (fixedField_of_lt mk (streamValue_lt n s h)), ?_⟩
  rw [hm, withRead_of_le hn h, hrow]

/-- BHDR reads its three bits in the RFC dialect (R270, R271). -/
theorem exec_tagBhdr {s : State} (hv : s.vendor = false) :
    exec .tagBhdr s = finish (withRead 3 s fun v s1 => bhdrAct (BitVec.ofNat 3 v) s1) := by
  change finish (bhdr s) = _
  rw [bhdr, hv]
  rfl

/-! Symbols (R305, R343, R345). -/

theorem decode_clsym_length {v : Nat} (hv : v ≤ 15) :
    ∃ i, decode .clsym v [] = .ok i ∧ ∀ s, exec i s = finish (lsymAct v s) := by
  interval_cases v <;> exact ⟨_, rfl, fun _ => rfl⟩

/-- The LL symbols that SYM completes: the literals, the end of a block, the invalid ones. -/
theorem decode_llsym_symbol {v : Nat} (hv : v ≤ 256 ∨ v = 286 ∨ v = 287) :
    ∃ i, decode .llsym v [] = .ok i ∧ ∀ s, exec i s = finish (symAct v s) := by
  by_cases hlit : v < 256
  · refine ⟨_, decode_llsym_lit hlit [], fun s => ?_⟩
    rw [symAct, if_pos hlit]
    rfl
  · obtain rfl | rfl | rfl : v = 256 ∨ v = 286 ∨ v = 287 := by omega
    · exact ⟨.eob, rfl, fun _ => rfl⟩
    · exact ⟨.llInvalid286, rfl, fun _ => rfl⟩
    · exact ⟨.llInvalid287, rfl, fun _ => rfl⟩

theorem decode_dsym_invalid {v : Nat} (hv : v = 30 ∨ v = 31) :
    ∃ i, decode .dsym v [] = .ok i ∧ ∀ s, exec i s = finish (dsymAct v s) := by
  obtain rfl | rfl := hv
  · exact ⟨.dInvalid30, rfl, fun _ => rfl⟩
  · exact ⟨.dInvalid31, rfl, fun _ => rfl⟩

/-! Extra bits (R306, R344, R346). -/

theorem State.with_cur_eq_self {s : State} {c : BitVec 9} (h : s.cur = c) : { s with cur := c } = s := by rw [← h]

/-- Where CUR is 16 already and there is a length to repeat, REP16 is DY_LEXTRA's fill (R306). -/
theorem exec_rep16 {x : Nat} (hx : x < 2 ^ 2) {s : State} (hc : s.cur = 16#9) (hj : s.j ≠ 0#9) :
    exec (.rep16 (BitVec.ofNat 2 x)) s = finish (fillLens (3 + x) s.lastLen s) := by
  change finish (rep16Act _ s) = _
  rw [rep16Act, if_neg hj, State.with_cur_eq_self hc, BitVec.toNat_ofNat, Nat.mod_eq_of_lt hx]

/-- Where CUR is 17 already, ZERO17 is DY_LEXTRA's fill (R306). -/
theorem exec_zero17 {x : Nat} (hx : x < 2 ^ 3) {s : State} (hc : s.cur = 17#9) :
    exec (.zero17 (BitVec.ofNat 3 x)) s = finish (fillLens (3 + x) 0#4 s) := by
  change finish (zero17Act _ s) = _
  rw [zero17Act, State.with_cur_eq_self hc, BitVec.toNat_ofNat, Nat.mod_eq_of_lt hx]

/-- Where CUR is 18 already, ZERO18 is DY_LEXTRA's fill (R306). -/
theorem exec_zero18 {x : Nat} (hx : x < 2 ^ 7) {s : State} (hc : s.cur = 18#9) :
    exec (.zero18 (BitVec.ofNat 7 x)) s = finish (fillLens (11 + x) 0#4 s) := by
  change finish (zero18Act _ s) = _
  rw [zero18Act, State.with_cur_eq_self hc, BitVec.toNat_ofNat, Nat.mod_eq_of_lt hx]

theorem dyLextra_matches {s : State} {e : Nat}
    (he : (s.cur = 16#9 ∧ s.j ≠ 0#9 ∧ e = 2) ∨ (s.cur = 17#9 ∧ e = 3) ∨ (s.cur = 18#9 ∧ e = 7)) (h : e ≤ avail s) :
    ∃ i, decode .clsym (s.cur.toNat + 32 * streamValue e s) [] = .ok i ∧
      exec .tagDyLextra s = exec i (afterRead e s) := by
  have hx := streamValue_lt e s h
  change ∃ i, _ ∧ finish (dyLextra s) = _
  rw [Nat.mul_comm, dyLextra]
  obtain ⟨hc, hj, rfl⟩ | ⟨hc, rfl⟩ | ⟨hc, rfl⟩ := he <;> rw [hc]
  · refine ⟨_, (decode_clsym (v := 16) (by decide) _ []).trans (withExtra_of_lt _ hx), ?_⟩
    rw [exec_rep16 hx (s := afterRead 2 s) hc hj]
    exact congrArg finish (withRead_of_le (by decide) h _)
  · refine ⟨_, (decode_clsym (v := 17) (by decide) _ []).trans (withExtra_of_lt _ hx), ?_⟩
    rw [exec_zero17 hx (s := afterRead 3 s) hc]
    exact congrArg finish (withRead_of_le (by decide) h _)
  · refine ⟨_, (decode_clsym (v := 18) (by decide) _ []).trans (withExtra_of_lt _ hx), ?_⟩
    rw [exec_zero18 hx (s := afterRead 7 s) hc]
    exact congrArg finish (withRead_of_le (by decide) h _)

theorem lenExtra_matches {s : State} {b e : Nat} (hr : romLen s.cur.toNat = some (b, e)) (h : e ≤ avail s) :
    ∃ i, decode .llsym (s.cur.toNat + 512 * streamValue e s) [] = .ok i ∧
      exec .tagLenExtra s = exec i (afterRead e s) := by
  obtain ⟨i, hi, hexec⟩ := decodeLl_length hr (streamValue_lt e s h)
  refine ⟨i, ?_, ?_⟩
  · rw [Nat.mul_comm, decode_llsym s.cur.isLt, hi]
  · change finish (lenExtra s) = _
    rw [hexec, lenExtra, hr]
    exact congrArg finish (withRead_of_le (romLen_extra_le hr) h _)

theorem distExtra_matches {s : State} {b e : Nat} (hr : romDist s.dsym.toNat = some (b, e)) (h : e ≤ avail s) :
    ∃ i, decode .dsym (s.dsym.toNat + 32 * streamValue e s) [] = .ok i ∧
      exec .tagDistExtra s = exec i (afterRead e s) := by
  obtain ⟨i, hi, hexec⟩ := decodeD_distance hr (streamValue_lt e s h)
  refine ⟨i, ?_, ?_⟩
  · rw [Nat.mul_comm, decode_dsym s.dsym.isLt, hi]
  · change finish (distExtra s) = _
    rw [hexec, distExtra, hr]
    exact congrArg finish (withRead_of_le (romDist_extra_le hr) h _)

/-! The statement. -/

theorem fields_match {s : State} {m : Instr} {f : Format} {n : Nat} (hv : s.vendor = false)
    (hm : (m, f, n) ∈ [(.tagBhdr, .bhdr3, 3), (.tagStLen, .storedLen, 16), (.tagStNlen, .storedNlen, 16),
      (.tagStCopy, .storedByte, 8), (.tagDyHlit, .dynHlit, 5), (.tagDyHdist, .dynHdist, 5), (.tagDyHclen, .dynHclen, 4),
      (.tagDyCll, .dynCll, 3)]) (h : n ≤ avail s) :
    ∃ i, decode f (streamValue n s) [] = .ok i ∧ exec m s = exec i (afterRead n s) := by
  simp only [List.mem_cons, List.not_mem_nil, or_false, Prod.mk.injEq] at hm
  obtain ⟨rfl, rfl, rfl⟩ | ⟨rfl, rfl, rfl⟩ | ⟨rfl, rfl, rfl⟩ | ⟨rfl, rfl, rfl⟩ | ⟨rfl, rfl, rfl⟩ | ⟨rfl, rfl, rfl⟩ |
    ⟨rfl, rfl, rfl⟩ | ⟨rfl, rfl, rfl⟩ := hm
  · exact field_matches decodeBhdr bhdrAct (by decide) h (fun _ => rfl) (exec_tagBhdr hv) exec_decodeBhdr
  · exact field_matches .len16 lenAct (by decide) h (fun _ => rfl) rfl fun _ _ => rfl
  · exact field_matches .nlen16 nlenAct (by decide) h (fun _ => rfl) rfl fun _ _ => rfl
  · exact field_matches .storedByte storedByteAct (by decide) h (fun _ => rfl) rfl fun _ _ => rfl
  · exact field_matches .hlit5 hlitAct (by decide) h (fun _ => rfl) rfl fun _ _ => rfl
  · exact field_matches .hdist5 hdistAct (by decide) h (fun _ => rfl) rfl fun _ _ => rfl
  · exact field_matches .hclen4 hclenAct (by decide) h (fun _ => rfl) rfl fun _ _ => rfl
  · exact field_matches .cll3 cllAct (by decide) h (fun _ => rfl) rfl fun _ _ => rfl

/-- A micro-operation that decodes a symbol and goes on with `act` matches a row of that symbol that runs as `act`. -/
theorem symbol_matches {m i : Instr} {t : Memory Entry} {code rest : List Bool} {s : State} {v : Nat}
    {act : Nat → State → Micro} (hs : streamBits s = code ++ rest) (hl : code.length ≤ 15)
    (hf : followCode t 0 code = some v)
    (hm : exec m s = finish (withSymbol t s act)) (hi : ∀ u, exec i u = finish (act v u)) :
    exec m s = exec i (afterRead code.length s) := by
  rw [hm, withSymbol_of_followCode hs hl hf, hi]

/-- DSYM with a distance table that is not empty decodes a symbol (R345). -/
theorem exec_tagDsym {s : State} (h : s.dEmpty = false) : exec .tagDsym s = finish (withSymbol s.tD s dsymAct) := by
  change finish (dsym s) = _
  rw [dsym, h]
  rfl

/-- Settles O46: each clause by the lemma of its kind of row. -/
theorem tokensMatchMicroSteps : Obligations.TokensMatchMicroSteps := by
  refine ⟨fun s => zhdr_matches, fun s m f n hv hm => fields_match hv hm, ?_, fun s e he => dyLextra_matches he,
    fun s b e hr => lenExtra_matches hr, fun s b e hr => distExtra_matches hr⟩
  intro s code rest v hs hl
  refine ⟨fun hf hv => ?_, fun hf hv => ?_, fun hf hd hv => ?_⟩
  · obtain ⟨i, hi, hexec⟩ := decode_clsym_length hv
    exact ⟨i, hi, symbol_matches hs hl hf rfl hexec⟩
  · obtain ⟨i, hi, hexec⟩ := decode_llsym_symbol hv
    exact ⟨i, hi, symbol_matches hs hl hf rfl hexec⟩
  · obtain ⟨i, hi, hexec⟩ := decode_dsym_invalid hv
    exact ⟨i, hi, symbol_matches hs hl hf (exec_tagDsym hd) hexec⟩

end Sys2Proof.Machine

/-! PROOF. The bit reader: PullMovesBytes, RetryAfterSupply, AlignToByte. -/

namespace Sys2Proof.Machine

/-! PULL moves the least number of whole bytes that suffices, or all there are (R201). -/

theorem pullBytes_count (n : Nat) (bs : List Byte) (acc : List Bool) :
    (pullBytes n bs acc).2 = min ((n - acc.length + 7) / 8) bs.length := by
  induction bs generalizing acc with
  | nil => simp [pullBytes]
  | cons b bs ih =>
    rw [pullBytes]
    split
    next hlt =>
      have hih := ih (acc ++ byteBits b)
      simp only [List.length_append, byteBits_length] at hih
      simp only [hih, List.length_cons]
      omega
    next hge =>
      simp only [List.length_cons]
      omega

theorem pullBytes_acc (n : Nat) (bs : List Byte) (acc : List Bool) :
    (pullBytes n bs acc).1 = acc ++ (bs.take ((n - acc.length + 7) / 8)).flatMap byteBits := by
  rw [(pullBytes_spec n bs acc).1, pullBytes_count, ← List.take_eq_take_min]

/-- Settles O15: by the accumulator and the byte count that PULL's loop leaves. -/
theorem pullMovesBytes : Obligations.PullMovesBytes := by
  intro n s
  simp only [pull, pullBytes_acc, pullBytes_count, unread]

/-! A request that uses up its span goes on over the next one (R208, R209). -/

/-- PULL's loop over two spans joined, the first of them used up, is the loop over the second from where the first ends. -/
theorem pullBytes_append (n : Nat) (bs cs : List Byte) (acc : List Bool) (h : (pullBytes n bs acc).2 = bs.length) :
    pullBytes n (bs ++ cs) acc =
      ((pullBytes n cs (pullBytes n bs acc).1).1, bs.length + (pullBytes n cs (pullBytes n bs acc).1).2) := by
  induction bs generalizing acc with
  | nil => simp [pullBytes]
  | cons b bs ih =>
    rw [pullBytes] at h
    split at h
    next hlt =>
      have hih := ih (acc ++ byteBits b) (Nat.succ.inj h)
      simp only [List.cons_append, pullBytes, hlt, if_true, hih, List.length_cons]
      rw [Nat.add_right_comm]
    next hge => cases h

theorem unread_append {s : State} (h : s.ipos ≤ s.span.length) (bs : List Byte) :
    unread { s with span := s.span ++ bs } = unread s ++ bs :=
  List.drop_append_of_le_length h

/-- The pull uses up the span exactly when its loop takes every unread byte. -/
theorem pull_uses_up {n : Nat} {s : State} (h : (pull n s).ipos = s.span.length) :
    s.ipos ≤ s.span.length ∧ (pullBytes n (unread s) s.acc).2 = (unread s).length := by
  rw [pull_ipos] at h
  refine ⟨by omega, ?_⟩
  rw [unread, List.length_drop]
  omega

/-- The bits at hand after a SUPPLY are those of the two spans joined. -/
theorem streamBits_supply {n : Nat} {s : State} (h : (pull n s).ipos = s.span.length) (bs : List Byte) :
    streamBits { pull n s with span := bs, ipos := 0 } = streamBits { s with span := s.span ++ bs } := by
  have hempty : unread (pull n s) = [] := by
    rw [unread, pull_span, h, List.drop_length]
  calc streamBits { pull n s with span := bs, ipos := 0 }
      = streamBits (pull n s) ++ bs.flatMap byteBits := by
        rw [streamBits, streamBits, hempty, List.flatMap_nil, List.append_nil]; rfl
    _ = streamBits { s with span := s.span ++ bs } := by
        rw [streamBits_pull, streamBits, streamBits, unread_append (pull_uses_up h).1, List.flatMap_append,
          List.append_assoc]

/-- Settles O16: PULL's loop goes on over the new span, and the stream bits are those of the spans joined. -/
theorem retryAfterSupply : Obligations.RetryAfterSupply := by
  intro n s bs h
  obtain ⟨hle, hall⟩ := pull_uses_up h
  have hloop := pullBytes_append n (unread s) bs s.acc hall
  rw [← unread_append hle] at hloop
  have hbits := streamBits_supply h bs
  refine ⟨(congrArg Prod.fst hloop).symm, ?_, congrArg List.length hbits, by rw [streamValue, hbits, streamValue]⟩
  have hcount : (pullBytes n (unread { s with span := s.span ++ bs }) s.acc).2 =
      (pullBytes n (unread s) s.acc).2 + (pullBytes n bs (pull n s).acc).2 := by
    rw [hloop, hall]
    rfl
  change s.inTotal + BitVec.ofNat 64 (pullBytes n (unread s) s.acc).2 +
    BitVec.ofNat 64 (pullBytes n bs (pull n s).acc).2 =
    s.inTotal + BitVec.ofNat 64 (pullBytes n (unread { s with span := s.span ++ bs }) s.acc).2
  rw [hcount, BitVec.ofNat_add, BitVec.add_assoc]

/-! ALIGN (R205). -/

/-- With whole bytes in ACC, whole bytes have been consumed. -/
theorem positionResidual_of_dvd {s : State} (h : s.acc.length % 8 = 0) : positionResidual s = 0#3 := by
  apply BitVec.eq_of_toNat_eq
  simp only [positionResidual, positionBits, BitVec.toNat_setWidth, BitVec.toNat_sub, BitVec.toNat_shiftLeft,
    BitVec.toNat_ofNat, Nat.shiftLeft_eq]
  omega

theorem align_acc_length (s : State) : (align s).acc.length = s.acc.length - s.acc.length % 8 :=
  List.length_drop

/-- Settles O17: ALIGN leaves a multiple of 8 bits in ACC, and what it drops is the front of the stream. -/
theorem alignToByte : Obligations.AlignToByte := by
  intro s
  have hlen := align_acc_length s
  have hmod : (align s).acc.length % 8 = 0 := by omega
  refine ⟨rfl, hmod, positionResidual_of_dvd hmod, ?_, by omega⟩
  exact (List.drop_append_of_le_length (Nat.mod_le _ _)).symm

end Sys2Proof.Machine

/-! PROOF. BUILD and the codes of its table: BuildFewSymbols, BuildCompleteness, CanonicalCodeDecodes. -/

namespace Sys2Proof.Machine

/-! BUILD of at most one used symbol (R232, R233). -/

theorem usedCount_eq_zero {ls : List Nat} (h : ∀ l ∈ ls, l = 0) : usedCount ls = 0 :=
  List.countP_eq_zero.2 fun l hl => by simp [h l hl]

/-- The lengths of an alphabet whose one used symbol is `i`. -/
theorem replicate_set_eq {n i : Nat} (l : Nat) (hi : i < n) :
    (List.replicate n 0).set i l = List.replicate i 0 ++ l :: List.replicate (n - i - 1) 0 := by
  rw [List.set_eq_take_append_cons_drop, List.length_replicate, if_pos hi, List.take_replicate, List.drop_replicate,
    min_eq_left hi.le, Nat.sub_add_eq]

theorem usedCount_replicate_set {n i l : Nat} (hi : i < n) (h1 : 1 ≤ l) (h2 : l ≤ 15) :
    usedCount ((List.replicate n 0).set i l) = 1 := by
  rw [replicate_set_eq l hi, usedCount, List.countP_append, List.countP_cons_of_pos (by simp [h1, h2])]
  simp [List.countP_replicate]

theorem onlySymbol_replicate_set {n i l : Nat} (hi : i < n) (h1 : 1 ≤ l) (h2 : l ≤ 15) :
    onlySymbol ((List.replicate n 0).set i l) = i := by
  have hunused : (List.replicate i 0).findIdx (fun l => decide (1 ≤ l ∧ l ≤ 15)) = (List.replicate i 0).length :=
    List.findIdx_eq_length.2 fun x hx => by simp [List.eq_of_mem_replicate hx]
  rw [replicate_set_eq l hi, onlySymbol, List.findIdx_append, hunused, if_neg (lt_irrefl _), List.length_replicate,
    List.findIdx_cons]
  simp [h1, h2]

/-- Settles O18: the number of used symbols selects BUILD's branch, and the unique one is found at its index. -/
theorem buildFewSymbols : Obligations.BuildFewSymbols := by
  refine ⟨fun ls h => ?_, fun n i l allowEmpty hi _ h1 h2 => ?_, fun t v a => ?_, fun t => rfl⟩
  · have h0 := usedCount_eq_zero h
    exact ⟨by rw [build, if_pos h0, if_pos rfl], by rw [build, if_pos h0, if_neg Bool.false_ne_true]⟩
  · have hu := usedCount_replicate_set hi h1 h2
    rw [build, if_neg (by omega), if_pos hu, onlySymbol_replicate_set hi h1 h2]
  · rw [builtTable, read_writeBlock]
    by_cases ha : a < 2
    · rw [if_pos (by simpa using ha), if_pos ha]
      interval_cases a <;> rfl
    · rw [if_neg (by simpa using ha), if_neg ha]

/-! BUILD of two or more used symbols, by the Kraft sum (R234, R235). -/

/-- BUILD of at least two used symbols: R234's check, then R235's, then R236's table. -/
theorem build_of_two_le {ls : List Nat} (h : 2 ≤ usedCount ls) (allowEmpty : Bool) :
    build ls allowEmpty =
      if oversubscribed ls then .fail .tooManySymbols
      else if incomplete ls then .fail .incompleteTree
      else .table (tableEntries ls) := by
  rw [build, if_neg (by omega), if_neg (by omega)]

/-- A table of at least two used symbols has passed both checks. -/
theorem checks_of_build_table {ls : List Nat} {allowEmpty : Bool} {es : List Entry} (h : 2 ≤ usedCount ls)
    (hb : build ls allowEmpty = .table es) : oversubscribed ls = false ∧ incomplete ls = false := by
  rw [build_of_two_le h] at hb
  split at hb
  · cases hb
  next ho =>
    split at hb
    · cases hb
    next hc => exact ⟨Bool.eq_false_iff.2 ho, Bool.eq_false_iff.2 hc⟩

/-- The end of length n + 1's code range is the Kraft sum of the lengths up to n + 1, in units of 2^−(n + 1) (R234). -/
theorem codeEnd_eq_sum (ls : List Nat) (n : Nat) :
    firstCode ls (n + 1) + lenCount ls (n + 1) =
      ((List.range (n + 1)).map fun i => lenCount ls (i + 1) * 2 ^ (n - i)).sum := by
  induction n with
  | zero => simp [firstCode]
  | succ n ih =>
    have hdouble : (List.range (n + 1)).map (fun i => lenCount ls (i + 1) * 2 ^ (n + 1 - i)) =
        (List.range (n + 1)).map (fun i => lenCount ls (i + 1) * 2 ^ (n - i) * 2) := by
      refine List.map_congr_left fun i hi => ?_
      rw [Nat.succ_sub (Nat.lt_succ_iff.1 (List.mem_range.1 hi)), pow_succ, mul_assoc]
    rw [List.range_succ, List.map_append, List.sum_append, hdouble, List.sum_map_mul_right, ← ih,
      firstCode_succ ls (n + 1) (by omega)]
    simp

/-- Codes longer than `i` bits start behind every code of length `i` (R234). -/
theorem codeEnd_mul_pow_le (ls : List Nat) {i : Nat} (hi : 1 ≤ i) (m : Nat) :
    (firstCode ls i + lenCount ls i) * 2 ^ (m + 1) ≤ firstCode ls (i + m + 1) := by
  induction m with
  | zero => rw [firstCode_succ ls i hi]; simp
  | succ m ih =>
    rw [firstCode_succ ls (i + (m + 1)) (by omega), pow_succ, ← mul_assoc]
    exact Nat.mul_le_mul_right 2 (le_add_right ih)

/-- Some length's range overflows exactly when the last one's does (R234). -/
theorem oversubscribed_iff (ls : List Nat) :
    oversubscribed ls = true ↔ 2 ^ 15 < firstCode ls 15 + lenCount ls 15 := by
  constructor
  · intro h
    obtain ⟨i, hi, hover⟩ := List.any_eq_true.1 h
    have hi : i < 15 := List.mem_range.1 hi
    have hover : 2 ^ (i + 1) < firstCode ls (i + 1) + lenCount ls (i + 1) := of_decide_eq_true hover
    obtain rfl | hlt : i = 14 ∨ i < 14 := by omega
    · exact hover
    · have hle := codeEnd_mul_pow_le ls (Nat.le_add_left 1 i) (13 - i)
      rw [show i + 1 + (13 - i) + 1 = 15 by omega] at hle
      calc 2 ^ 15 = 2 ^ (i + 1) * 2 ^ (13 - i + 1) := by rw [← pow_add]; congr 1; omega
        _ < (firstCode ls (i + 1) + lenCount ls (i + 1)) * 2 ^ (13 - i + 1) :=
          Nat.mul_lt_mul_of_pos_right hover (by positivity)
        _ ≤ firstCode ls 15 + lenCount ls 15 := le_add_right hle
  · intro h
    exact List.any_eq_true.2 ⟨14, List.mem_range.2 (by omega), decide_eq_true h⟩

theorem incomplete_iff (ls : List Nat) : incomplete ls = true ↔ firstCode ls 15 + lenCount ls 15 ≠ 2 ^ 15 :=
  decide_eq_true_iff

/-- Settles O19: the Kraft sum is the end of the length-15 code range, which both of BUILD's checks bound. -/
theorem buildCompleteness : Obligations.BuildCompleteness := by
  intro ls allowEmpty h
  rw [build_of_two_le h, ← codeEnd_eq_sum ls 14]
  by_cases hover : 2 ^ 15 < firstCode ls 15 + lenCount ls 15
  · rw [if_pos ((oversubscribed_iff ls).2 hover), if_pos hover]
  · rw [if_neg (mt (oversubscribed_iff ls).1 hover), if_neg hover]
    by_cases hless : firstCode ls 15 + lenCount ls 15 < 2 ^ 15
    · rw [if_pos ((incomplete_iff ls).2 hless.ne), if_pos hless]
    · rw [if_neg (mt (incomplete_iff ls).1 (by omega)), if_neg hless]

/-! Where the levels of a table stand (R236). -/

/-- The index of level `i`'s first entry: level 1 is at index 0, each level follows the one before it (R236). -/
def levelStart (ls : List Nat) : Nat → Nat
  | 0 => 0
  | 1 => 0
  | n + 2 => levelStart ls (n + 1) + (2 ^ (n + 1) - firstCode ls (n + 1))

theorem levelStart_succ (ls : List Nat) {i : Nat} (hi : 1 ≤ i) :
    levelStart ls (i + 1) = levelStart ls i + (2 ^ i - firstCode ls i) := by
  obtain ⟨k, rfl⟩ : ∃ k, i = k + 1 := ⟨i - 1, by omega⟩
  rfl

/-- From level `n + 1`'s first index on, the table holds the levels from `n + 1` on. -/
theorem tableEntries_drop (ls : List Nat) (ho : oversubscribed ls = false) (n : Nat) (hn : n ≤ 15) :
    (tableEntries ls).drop (levelStart ls (n + 1)) = levelsFrom ls (15 - n) (n + 1) (levelStart ls (n + 1)) := by
  induction n with
  | zero => rfl
  | succ n ih =>
    have hlen := levelEntries_length ls (n + 1) (levelStart ls (n + 1))
      (not_oversubscribed ls ho (n + 1) (by omega) hn)
    rw [levelStart_succ ls (by omega), ← List.drop_drop, ih (by omega), show 15 - n = 15 - (n + 1) + 1 by omega,
      levelsFrom, List.drop_left' hlen]

/-- The index of the entry that stands for code value `p` on level `i`. -/
def nodeIndex (ls : List Nat) (i p : Nat) : Nat := levelStart ls i + (p - firstCode ls i)

/-- The entry of a code value is the one of its level, counted from the level's first code. -/
theorem tableEntries_nodeIndex (ls : List Nat) (ho : oversubscribed ls = false) {i p : Nat} (h1 : 1 ≤ i) (h2 : i ≤ 15)
    (hp : firstCode ls i ≤ p) (hlt : p < 2 ^ i) :
    (tableEntries ls)[nodeIndex ls i p]? = (levelEntries ls i (levelStart ls i))[p - firstCode ls i]? := by
  obtain ⟨n, rfl⟩ : ∃ n, i = n + 1 := ⟨i - 1, by omega⟩
  have hlen := levelEntries_length ls (n + 1) (levelStart ls (n + 1)) (not_oversubscribed ls ho (n + 1) h1 h2)
  rw [nodeIndex, ← List.getElem?_drop, tableEntries_drop ls ho n (by omega), show 15 - n = 14 - n + 1 by omega, levelsFrom,
    List.getElem?_append_left (by omega)]

/-- Every code value from its level's first code on has an entry within the table. -/
theorem nodeIndex_lt_length (ls : List Nat) (ho : oversubscribed ls = false) {i p : Nat} (h1 : 1 ≤ i) (h2 : i ≤ 15)
    (hp : firstCode ls i ≤ p) (hlt : p < 2 ^ i) : nodeIndex ls i p < (tableEntries ls).length := by
  have hlen := levelEntries_length ls i (levelStart ls i) (not_oversubscribed ls ho i h1 h2)
  have hget := tableEntries_nodeIndex ls ho h1 h2 hp hlt
  rw [List.getElem?_eq_getElem (show p - firstCode ls i < _ by rw [hlen]; omega)] at hget
  exact (List.getElem?_eq_some_iff.1 hget).1

/-- Among the symbols of its length, a symbol comes behind the smaller ones (R236). -/
theorem symbolsFrom_get (s l : Nat) (ls : List Nat) (i : Nat) (hi : ls[i]? = some l) :
    (symbolsFrom s l ls)[(ls.take i).count l]? = some (s + i) := by
  induction ls generalizing s i with
  | nil => cases hi
  | cons x ls ih =>
    cases i with
    | zero =>
      obtain rfl : x = l := by simpa using hi
      simp [symbolsFrom]
    | succ i =>
      have hrest := ih (s + 1) i (by simpa using hi)
      rw [Nat.add_right_comm] at hrest
      rw [symbolsFrom, List.take_succ_cons, List.count_cons, ← Nat.add_assoc]
      by_cases hx : x = l
      · simpa [hx] using hrest
      · simpa [hx] using hrest

theorem codeValue_eq {ls : List Nat} {i l : Nat} (hi : ls[i]? = some l) :
    codeValue ls i = firstCode ls l + (ls.take i).count l := by
  rw [codeValue, List.getD_eq_getElem?_getD, hi]
  rfl

theorem count_take_lt {ls : List Nat} {i l : Nat} (hi : ls[i]? = some l) : (ls.take i).count l < lenCount ls l := by
  rw [← symbolsFrom_length 0]
  exact (List.getElem?_eq_some_iff.1 (symbolsFrom_get 0 l ls i hi)).1

theorem firstCode_le_codeValue {ls : List Nat} {i l : Nat} (hi : ls[i]? = some l) : firstCode ls l ≤ codeValue ls i := by
  rw [codeValue_eq hi]
  exact Nat.le_add_right _ _

/-- The code of a symbol of length `l` is an `l`-bit value (R234). -/
theorem codeValue_lt {ls : List Nat} (ho : oversubscribed ls = false) {i l : Nat} (hi : ls[i]? = some l) (h1 : 1 ≤ l)
    (h2 : l ≤ 15) : codeValue ls i < 2 ^ l := by
  have hfit := not_oversubscribed ls ho l h1 h2
  have hcount := count_take_lt hi
  rw [codeValue_eq hi]
  omega

/-- The entry of a symbol's code on the level of its length is the leaf that holds the symbol (R236). -/
theorem tableEntries_codeValue {ls : List Nat} (ho : oversubscribed ls = false) {i l : Nat} (hi : ls[i]? = some l)
    (h1 : 1 ≤ l) (h2 : l ≤ 15) : (tableEntries ls)[nodeIndex ls l (codeValue ls i)]? = some (BitVec.ofNat 16 i) := by
  rw [tableEntries_nodeIndex ls ho h1 h2 (firstCode_le_codeValue hi) (codeValue_lt ho hi h1 h2), codeValue_eq hi,
    Nat.add_sub_cancel_left, levelEntries, List.getElem?_append_left (by rw [leavesAt_length]; exact count_take_lt hi),
    leavesAt, List.getElem?_map, symbolsFrom_get 0 l ls i hi, Nat.zero_add, Option.map_some]

/-- A code value behind the codes of its level's symbols has an internal entry, which points at the pair of its two one-bit
continuations on the next level (R236). -/
theorem tableEntries_pointer {ls : List Nat} (ho : oversubscribed ls = false) {i p : Nat} (h1 : 1 ≤ i) (h2 : i ≤ 15)
    (hp : firstCode ls i + lenCount ls i ≤ p) (hlt : p < 2 ^ i) :
    (tableEntries ls)[nodeIndex ls i p]? = some (~~~(BitVec.ofNat 16 (nodeIndex ls (i + 1) (2 * p)))) := by
  rw [tableEntries_nodeIndex ls ho h1 h2 (by omega) hlt, levelEntries,
    List.getElem?_append_right (by rw [leavesAt_length]; omega), leavesAt_length, internals_get _ _ _ (by omega), nodeIndex,
    levelStart_succ ls h1, firstCode_succ ls i h1]
  congr 3
  omega

/-! The walk along a code (R240, R243). -/

theorem followCode_leaf {t : Memory Entry} {idx v : Nat} {b : Bool} (hv : v < 2 ^ 15)
    (h : Memory.read t (idx + b.toNat) = some (BitVec.ofNat 16 v)) : followCode t idx [b] = some v := by
  have hval : (BitVec.ofNat 16 v).toNat = v := Nat.mod_eq_of_lt (by omega)
  have hmsb : (BitVec.ofNat 16 v).msb = false := by rw [BitVec.msb_eq_false_iff_two_mul_lt, hval]; omega
  simp only [followCode, h, hmsb, hval, Bool.false_eq_true, if_false, if_true]

theorem followCode_pointer {t : Memory Entry} {idx p : Nat} {b : Bool} (hp : p < 2 ^ 15)
    (h : Memory.read t (idx + b.toNat) = some (~~~(BitVec.ofNat 16 p))) (bs : List Bool) :
    followCode t idx (b :: bs) = followCode t p bs := by
  have hval : (BitVec.ofNat 16 p).toNat = p := Nat.mod_eq_of_lt (by omega)
  have hmsb : (~~~(BitVec.ofNat 16 p)).msb = true := by
    rw [BitVec.msb_eq_true_iff_two_mul_ge, BitVec.toNat_not, hval]; omega
  simp only [followCode, h, hmsb, if_true, BitVec.not_not, hval]

theorem valueBits_succ_last (n v : Nat) : valueBits (n + 1) v = valueBits n v ++ [decide (v / 2 ^ n % 2 = 1)] := by
  induction n generalizing v with
  | zero => simp [valueBits]
  | succ n ih =>
    rw [valueBits, ih (v / 2), valueBits, List.cons_append, Nat.div_div_eq_div_mul, pow_succ']

/-- The first bit of a code is its most significant one. -/
theorem codeBits_succ (n c : Nat) : codeBits (n + 1) c = decide (c / 2 ^ n % 2 = 1) :: codeBits n c := by
  rw [codeBits, valueBits_succ_last, List.reverse_append]
  rfl

theorem codeBits_length (n c : Nat) : (codeBits n c).length = n := by
  induction n with
  | zero => rfl
  | succ n ih => rw [codeBits_succ, List.length_cons, ih]

/-- A table that BUILD writes holds its entries, whatever was there before. -/
theorem read_builtTable {es : List Entry} {k : Nat} {e : Entry} (h : es[k]? = some e) (t : Memory Entry) :
    Memory.read (builtTable (.table es) t) k = some e :=
  (read_writeBlock_zero t es k (List.getElem?_eq_some_iff.1 h).1).trans h

/-- Code ranges start at even values (R234). -/
theorem firstCode_even (ls : List Nat) (i : Nat) : firstCode ls i % 2 = 0 := by
  match i with
  | 0 => rfl
  | 1 => rfl
  | n + 2 => exact Nat.mul_mod_left _ 2

/-- The two code values that differ in their last bit stand side by side. -/
theorem nodeIndex_pair (ls : List Nat) {i p : Nat} (hp : firstCode ls i ≤ p) :
    nodeIndex ls i (2 * (p / 2)) + (decide (p % 2 = 1)).toNat = nodeIndex ls i p := by
  have heven := firstCode_even ls i
  rw [nodeIndex, nodeIndex]
  obtain hb | hb := Nat.mod_two_eq_zero_or_one p
  · simp only [hb, Nat.zero_ne_one, decide_false, Bool.toNat_false]
    omega
  · simp only [hb, decide_true, Bool.toNat_true]
    omega

/-- The first `i` bits of a code of length `i + m + 1` lie, on level `i`, behind the codes of the level's symbols. -/
theorem codeEnd_le_div (ls : List Nat) {i m c : Nat} (h1 : 1 ≤ i) (hc : firstCode ls (i + m + 1) ≤ c) :
    firstCode ls i + lenCount ls i ≤ c / 2 ^ (m + 1) :=
  (Nat.le_div_iff_mul_le (by positivity)).2 ((codeEnd_mul_pow_le ls h1 m).trans hc)

/-- From the pair behind the first `i - 1` bits of a symbol's code, the other `m + 1` bits lead to the symbol's leaf. -/
theorem followCode_codeBits {ls : List Nat} (ho : oversubscribed ls = false) (hsize : (tableEntries ls).length ≤ 2 ^ 15)
    {v l : Nat} (hv : ls[v]? = some l) (hl : l ≤ 15) (hsym : v < 2 ^ 15) (t : Memory Entry) (m i : Nat) (h1 : 1 ≤ i)
    (hi : i + m = l) :
    followCode (builtTable (.table (tableEntries ls)) t) (nodeIndex ls i (2 * (codeValue ls v / 2 ^ (m + 1))))
      (codeBits (m + 1) (codeValue ls v)) = some v := by
  have hfirst := firstCode_le_codeValue hv
  have hcode := codeValue_lt ho hv (by omega) hl
  induction m generalizing i with
  | zero =>
    obtain rfl : i = l := hi
    rw [codeBits_succ, pow_zero, Nat.div_one, zero_add, pow_one]
    refine followCode_leaf hsym ?_
    rw [nodeIndex_pair ls (by omega)]
    exact read_builtTable (tableEntries_codeValue ho hv h1 hl) t
  | succ m ih =>
    have hfront : firstCode ls i + lenCount ls i ≤ codeValue ls v / 2 ^ (m + 1) :=
      codeEnd_le_div ls h1 (by rwa [show i + m + 1 = l by omega])
    have hlt : codeValue ls v / 2 ^ (m + 1) < 2 ^ i :=
      Nat.div_lt_of_lt_mul (by rwa [← pow_add, show m + 1 + i = l by omega])
    have hnext : nodeIndex ls (i + 1) (2 * (codeValue ls v / 2 ^ (m + 1))) < (tableEntries ls).length :=
      nodeIndex_lt_length ls ho (by omega) (by omega) (by rw [firstCode_succ ls i h1]; omega) (by rw [pow_succ 2 i]; omega)
    rw [codeBits_succ, pow_succ _ (m + 1), ← Nat.div_div_eq_div_mul]
    refine (followCode_pointer (hnext.trans_le hsize) ?_ _).trans (ih (i + 1) (by omega) (by omega))
    rw [nodeIndex_pair ls (by omega)]
    exact read_builtTable (tableEntries_pointer ho h1 (by omega) hfront hlt) t

/-- Settles O20: on every level the code's first bits have a pointer to the pair of their continuations, by induction on the
bits that are left. -/
theorem canonicalCodeDecodes : Obligations.CanonicalCodeDecodes := by
  intro ls allowEmpty t i hb hu hn hi h1 h2
  refine ⟨codeBits_length _ _, ?_⟩
  obtain ⟨ho, hc⟩ := checks_of_build_table hu hb
  have hsize := tableEntries_length ls ho hc
  have hle := usedCount_le ls
  have hget : ls[i]? = some (ls.getD i 0) := by rw [List.getD_eq_getElem _ _ hi, List.getElem?_eq_getElem hi]
  have hcode := codeValue_lt ho hget h1 h2
  obtain ⟨m, hm⟩ : ∃ m, ls.getD i 0 = m + 1 := ⟨ls.getD i 0 - 1, by omega⟩
  have hwalk := followCode_codeBits ho (by omega) hget h2 (by omega) t m 1 le_rfl (by omega)
  rw [hm] at hcode
  rw [Nat.div_eq_of_lt hcode] at hwalk
  rw [hb, hm]
  exact hwalk

end Sys2Proof.Machine

/-! PROOF. Stored blocks, block headers and the fixed fields of a dynamic header: StoredLengthStep, StoredComplementStep,
StoredCopyStep, BlockHeaderStep, BlockEndSteps, VendorDialectStops, FieldTokens. What a row does with its field is said once,
of its act; the micro-operation is a READ before the same act. -/

namespace Sys2Proof.Machine

/-! A micro-operation that reads a field. -/

/-- Without its bits a READ suspends; with them the micro-operation answers what it goes on to (R203, R431). -/
theorem finish_withRead {n : Nat} (hn : n ≤ 16) {s u : State} {go : Nat → State → Micro}
    (hgo : n ≤ avail s → finish (go (streamValue n s) (afterRead n s)) = .next u) :
    finish (withRead n s go) = .next (if avail s < n then endStep Status.needMoreInput (pull n s) else u) := by
  rw [withRead_eq n hn]
  split
  · rfl
  next hav => exact hgo (Nat.not_lt.1 hav)

theorem toNat_ofNat_streamValue {n : Nat} {s : State} (h : n ≤ avail s) :
    (BitVec.ofNat n (streamValue n s)).toNat = streamValue n s := by
  rw [BitVec.toNat_ofNat, Nat.mod_eq_of_lt (streamValue_lt n s h)]

/-! Stored blocks (R272 to R275). -/

/-- LEN is stored; where no NLEN follows, the block begins or ends at once (R272). -/
theorem finish_lenAct (v : BitVec 16) (s : State) : finish (lenAct v s) = .next
    (if s.nlenChecked = true then afterContinue { s with storedLen := v, tag := Tag.stNlen }
    else afterContinue { s with storedLen := v, rem := v, tag := if v = 0#16 then Tag.blkEnd else Tag.stCopy }) := by
  unfold lenAct
  split <;> rfl

/-- Settles O24: a READ of 16 bits, then LEN's effect. -/
theorem storedLengthStep : Obligations.StoredLengthStep := fun s =>
  finish_withRead le_rfl fun _ => finish_lenAct _ (afterRead 16 s)

/-- NLEN matches when it is 65535 less LEN, the complement of LEN (R273). -/
theorem nlenMatches_iff (len nlen : BitVec 16) : nlenMatches len nlen = true ↔ nlen.toNat = 65535 - len.toNat := by
  have hnot : len ^^^ 0xFFFF#16 = ~~~len := BitVec.xor_allOnes
  rw [nlenMatches, beq_iff_eq, hnot, ← BitVec.toNat_inj, BitVec.toNat_not]

/-- The complement of LEN begins the block; any other NLEN is corrupt_stream (R273). -/
theorem finish_nlenAct (v : BitVec 16) (s : State) : finish (nlenAct v s) = .next
    (if v.toNat = 65535 - s.storedLen.toNat then
      afterContinue { s with rem := s.storedLen, tag := if s.storedLen = 0#16 then Tag.blkEnd else Tag.stCopy }
    else fatal .corruptStream s) := by
  unfold nlenAct
  simp only [nlenMatches_iff]
  split <;> rfl

/-- Settles O25: a READ of 16 bits, then NLEN's effect. -/
theorem storedComplementStep : Obligations.StoredComplementStep := fun s =>
  finish_withRead le_rfl fun hav => by
    have hact := finish_nlenAct (BitVec.ofNat 16 (streamValue 16 s)) (afterRead 16 s)
    rwa [toNat_ofNat_streamValue hav] at hact

/-- PUT with room produces its byte (R340). -/
theorem putsByte_put (v : Byte) {s : State} (h : s.wpos.toNat < 32768) : PutsByte v s (finish (put v s)) := by
  refine ⟨(putByte v s).win, putByte_read v s, ?_⟩
  rw [put_room v s h]
  split
  next hfull =>
    have hw : s.wpos + 1#16 = 32768#16 := BitVec.eq_of_toNat_eq ((wpos_succ_toNat h).trans hfull)
    rw [← hw]
    rfl
  · rfl

/-- The byte that takes REM from 1 to 0 is the last one (R274, R347). -/
theorem countDown_eq (next : BitVec 5) (s : State) :
    countDown next s = { s with rem := s.rem - 1#16, tag := if s.rem = 1#16 then next else s.tag } := by
  have hlast : s.rem - 1#16 = 0#16 ↔ s.rem = 1#16 := sub_eq_zero
  simp only [countDown, hlast]

/-- A stored byte is produced once it has left REM (R274). -/
theorem putsByte_storedByteAct (b : Byte) {s : State} (h : s.wpos.toNat < 32768) :
    PutsByte b { s with rem := s.rem - 1#16, tag := if s.rem = 1#16 then Tag.blkEnd else s.tag }
      (finish (storedByteAct b s)) := by
  rw [← countDown_eq]
  exact putsByte_put b h

/-- Settles O26: a READ of 8 bits, then the byte is produced. -/
theorem storedCopyStep : Obligations.StoredCopyStep := by
  intro s
  change (_ → finish (stCopy s) = _) ∧ (_ → _ → PutsByte _ _ (finish (stCopy s)))
  rw [stCopy, withRead_eq 8 (by decide)]
  refine ⟨fun hav => ?_, fun hav hroom => ?_⟩
  · rw [if_pos hav]
    rfl
  · rw [if_neg (Nat.not_lt.2 hav)]
    exact putsByte_storedByteAct _ hroom

/-! Block headers (R270, R271). -/

/-- The fields of H: BFINAL is its first bit, BTYPE the next two (R123). -/
theorem headerFields : ∀ h : BitVec 3,
    h.getLsbD 0 = decide (h.toNat % 2 = 1) ∧ (h.extractLsb' 1 2).toNat = h.toNat / 2 ∧ h.toNat / 2 < 4 := by
  decide

/-- BFINAL and BTYPE are written, and BTYPE selects the block's first micro-operation (R270). -/
theorem finish_bhdrAct (v : BitVec 3) {s u : State}
    (hu : u = { s with bfinal := decide (v.toNat % 2 = 1), btype := BitVec.ofNat 2 (v.toNat / 2) }) :
    finish (bhdrAct v s) = .next
      (if v.toNat / 2 = 0 then afterContinue { u with acc := u.acc.drop (u.acc.length % 8), tag := Tag.stLen }
      else if v.toNat / 2 = 1 then afterContinue { u with tag := Tag.fxBuild }
      else if v.toNat / 2 = 2 then afterContinue { u with tag := Tag.dyHlit }
      else fatal .invalidBlockCode u) := by
  obtain ⟨hfinal, htype, hlt⟩ := headerFields v
  subst hu
  rw [bhdrAct, hfinal, htype]
  generalize v.toNat / 2 = btype at hlt
  interval_cases btype <;> rfl

/-- Settles O22: a READ of 3 bits, then the choice on BTYPE. -/
theorem blockHeaderStep : Obligations.BlockHeaderStep := by
  intro s hv
  rw [exec_tagBhdr hv]
  refine finish_withRead (by decide) fun hav => ?_
  have hact := finish_bhdrAct (BitVec.ofNat 3 (streamValue 3 s)) (s := afterRead 3 s) rfl
  rwa [toNat_ofNat_streamValue hav] at hact

/-- Settles O23: by the vendor bit of OPEN, and of the state at BHDR. -/
theorem vendorDialectStops : Obligations.VendorDialectStops := by
  refine ⟨fun _ _ _ _ _ => rfl, fun s hv => ?_⟩
  change finish (bhdr s) = _
  rw [bhdr, if_pos hv]
  rfl

/-! The end of a block and of the stream (R278, R279). -/

/-- Settles O28: by BFINAL, and in the final block by WPOS. -/
theorem blockEndSteps : Obligations.BlockEndSteps := by
  intro s
  refine ⟨?_, rfl⟩
  change finish (blkEnd s) = _
  rw [blkEnd]
  cases s.bfinal with
  | false => rfl
  | true =>
    by_cases hw : s.wpos = 0#16
    · rw [hw]
      rfl
    · have hpos : 0 < s.wpos.toNat := Nat.pos_of_ne_zero fun h0 => hw (BitVec.eq_of_toNat_eq h0)
      rw [if_pos rfl, if_neg hw, if_neg Bool.noConfusion, if_pos hpos]
      rfl

/-! The fixed fields of a dynamic header (R300 to R303). -/

theorem ofNat_of_toNat_eq {n m : Nat} {x : BitVec n} (h : x.toNat = m) : BitVec.ofNat n m = x := by
  rw [← h, BitVec.ofNat_toNat, BitVec.setWidth_eq]

/-- HLIT is the field plus 257; under REJECT a count above 286 is invalid_symbol (R300, R309). -/
theorem finish_hlitAct (v : BitVec 5) (s : State) : finish (hlitAct v s) = .next
    (if s.rejectOversize = true ∧ 286 < v.toNat + 257 then
      fatal .invalidSymbol { s with hlit := BitVec.ofNat 9 (v.toNat + 257) }
    else afterContinue { s with hlit := BitVec.ofNat 9 (v.toNat + 257), tag := Tag.dyHdist }) := by
  rw [ofNat_of_toNat_eq (hlit_toNat v), hlitAct]
  simp only [Bool.and_eq_true, decide_eq_true_eq]
  split <;> rfl

/-- HDIST is the field plus 1; under REJECT a count above 30 is invalid_symbol (R301, R309). -/
theorem finish_hdistAct (v : BitVec 5) (s : State) : finish (hdistAct v s) = .next
    (if s.rejectOversize = true ∧ 30 < v.toNat + 1 then
      fatal .invalidSymbol { s with hdist := BitVec.ofNat 6 (v.toNat + 1) }
    else afterContinue { s with hdist := BitVec.ofNat 6 (v.toNat + 1), tag := Tag.dyHclen }) := by
  rw [ofNat_of_toNat_eq (hdist_toNat v), hdistAct]
  simp only [Bool.and_eq_true, decide_eq_true_eq]
  split <;> rfl

/-- A read after a memory's first `n` elements are all set to one value. -/
theorem read_writeBlock_replicate {α : Type} (m : Memory α) (n : Nat) (v : α) (a : Nat) :
    Memory.read (Memory.writeBlock m 0 (List.replicate n v)) a = if a < n then some v else Memory.read m a := by
  rw [read_writeBlock]
  by_cases ha : a < n <;> simp [ha]

/-- HCLEN is the field plus 4, and CLENS is cleared (R302). -/
theorem finish_hclenAct (v : BitVec 4) (s : State) : ∃ m : Memory (BitVec 3),
    (∀ a, Memory.read m a = if a < 19 then some 0#3 else Memory.read s.clens a) ∧
    finish (hclenAct v s) = .next (afterContinue { s with
      hclen := BitVec.ofNat 5 (v.toNat + 4), k := 0#5, clens := m, tag := Tag.dyCll }) := by
  refine ⟨_, read_writeBlock_replicate s.clens 19 0#3, ?_⟩
  rw [ofNat_of_toNat_eq (hclen_toNat v)]
  rfl

/-- The field is written at CLENS[ROM_CLORDER[K]], and K counts up to HCLEN (R303, R308). -/
theorem finish_cllAct (v : BitVec 3) {s : State} (hk : s.k.toNat < 19) : ∃ m : Memory (BitVec 3),
    (∀ a, Memory.read m a = if some a = romClOrder s.k.toNat then some v else Memory.read s.clens a) ∧
    finish (cllAct v s) = .next (afterContinue { s with
      clens := m, k := s.k + 1#5, tag := if s.k.toNat + 1 = s.hclen.toNat then Tag.dyClbuild else s.tag }) := by
  obtain ⟨n, hrow, -⟩ := romClOrder_row hk
  have hsucc : s.k + 1#5 = s.hclen ↔ s.k.toNat + 1 = s.hclen.toNat := by
    rw [← BitVec.toNat_inj, BitVec.toNat_add_of_lt (by simp; omega)]
    rfl
  refine ⟨Memory.write s.clens n v, fun a => ?_, ?_⟩
  · simp only [hrow, Option.some.injEq]
    split
    next ha => rw [ha, read_write_same]
    next ha => exact read_write_other _ _ _ _ ha
  · simp only [cllAct, hrow, hsucc]
    rfl

/-! The STORED and DYN rows. -/

/-- Settles O42: each row runs as its act. -/
theorem fieldTokens : Obligations.FieldTokens := fun s =>
  ⟨fun v => finish_lenAct v s, fun v => finish_nlenAct v s, fun b hroom => putsByte_storedByteAct b hroom,
    fun v => finish_hlitAct v s, fun v => finish_hdistAct v s, fun v => finish_hclenAct v s, fun v hk => finish_cllAct v hk⟩

end Sys2Proof.Machine

/-! PROOF. The fixed tables: FixedTablesStep. The code lengths of the fixed alphabets are runs of equal lengths, so how many
symbols of a length come before a symbol, and with it every code, has a closed form. -/

namespace Sys2Proof.Machine

/-! The codes of a complete alphabet (R234 to R236, R243). -/

/-- Code lengths that fill the code space exactly have a table (R235). -/
theorem build_of_kraft {ls : List Nat} (hu : 2 ≤ usedCount ls)
    (hk : ((List.range 15).map (fun i => lenCount ls (i + 1) * 2 ^ (14 - i))).sum = 2 ^ 15) (allowEmpty : Bool) :
    build ls allowEmpty = .table (tableEntries ls) := by
  rw [buildCompleteness ls allowEmpty hu, hk, if_neg (lt_irrefl _), if_neg (lt_irrefl _)]

/-- A built table decodes a symbol of length `l` by that length's first code and the number of smaller symbols of the length
(R234, R236). -/
theorem followCode_of_build {ls : List Nat} {allowEmpty : Bool} (hb : build ls allowEmpty = .table (tableEntries ls))
    (hu : 2 ≤ usedCount ls) (hn : ls.length ≤ 288) (t : Memory Entry) {i l c : Nat} (hi : i < ls.length)
    (hl : ls.getD i 0 = l) (hl15 : 1 ≤ l ∧ l ≤ 15) (hc : firstCode ls l + (ls.take i).count l = c) :
    followCode (builtTable (build ls allowEmpty) t) 0 (codeBits l c) = some i := by
  subst hl hc
  exact (canonicalCodeDecodes ls allowEmpty t i hb hu hn hi hl15.1 hl15.2).2

/-! The fixed literal/length code (R132, R277). -/

/-- How many of the symbols below `v` have code length `l`: the four runs of ROM_FIXED_LL (R277). -/
theorem count_take_romFixedLL (v l : Nat) : (romFixedLL.take v).count l =
    (if l = 8 then min v 144 + min (v - 280) 8 else 0) + (if l = 9 then min (v - 144) 112 else 0) +
      if l = 7 then min (v - 256) 24 else 0 := by
  simp only [romFixedLL, List.take_append, List.take_replicate, List.length_append, List.length_replicate,
    List.count_append, List.count_replicate, beq_iff_eq]
  split_ifs <;> omega

theorem lenCount_romFixedLL (l : Nat) :
    lenCount romFixedLL l = if l = 8 then 152 else if l = 9 then 112 else if l = 7 then 24 else 0 := by
  rw [lenCount, ← List.take_length (l := romFixedLL), romFixedLL_length, count_take_romFixedLL]
  split_ifs <;> omega

theorem romFixedLL_getD {v : Nat} (h : v < 288) : romFixedLL.getD v 0 =
    if v < 144 then 8 else if v < 256 then 9 else if v < 280 then 7 else 8 := by
  simp only [romFixedLL, List.getD_eq_getElem?_getD, List.getElem?_append, List.getElem?_replicate, List.length_append,
    List.length_replicate]
  split_ifs <;> simp only [Option.getD_some, Option.getD_none] <;> omega

theorem firstCode_romFixedLL :
    firstCode romFixedLL 7 = 0 ∧ firstCode romFixedLL 8 = 0x30 ∧ firstCode romFixedLL 9 = 0x190 := by
  simp [firstCode, lenCount_romFixedLL]

theorem two_le_usedCount_romFixedLL : 2 ≤ usedCount romFixedLL := by
  simp [usedCount_eq, usedFrom, lenCount_romFixedLL]

theorem build_romFixedLL : build romFixedLL false = .table (tableEntries romFixedLL) :=
  build_of_kraft two_le_usedCount_romFixedLL (by simp [List.range_succ, lenCount_romFixedLL]) false

/-- Each run of the literal/length alphabet has its consecutive codes (R132). -/
theorem followCode_romFixedLL (t : Memory Entry) {v : Nat} (h : v < 288) :
    followCode (builtTable (build romFixedLL false) t) 0
      (if v < 144 then codeBits 8 (0x30 + v)
      else if v < 256 then codeBits 9 (0x190 + v - 144)
      else if v < 280 then codeBits 7 (v - 256)
      else codeBits 8 (0xC0 + v - 280)) = some v := by
  obtain ⟨h7, h8, h9⟩ := firstCode_romFixedLL
  have hcount := count_take_romFixedLL v
  have hlen := romFixedLL_getD h
  have hcode {l c : Nat} := followCode_of_build build_romFixedLL two_le_usedCount_romFixedLL romFixedLL_length.le t
    (l := l) (c := c) (h.trans_eq romFixedLL_length.symm)
  split_ifs at hlen ⊢ with h144 h256 h280
  · exact hcode hlen (by decide) (by rw [h8, hcount]; simp; omega)
  · exact hcode hlen (by decide) (by rw [h9, hcount]; simp; omega)
  · exact hcode hlen (by decide) (by rw [h7, hcount]; simp; omega)
  · exact hcode hlen (by decide) (by rw [h8, hcount]; simp; omega)

/-! The fixed distance code (R132, R277). -/

theorem lenCount_romFixedD (l : Nat) : lenCount romFixedD l = if l = 5 then 32 else 0 := by
  simp only [lenCount, romFixedD, List.count_replicate, beq_iff_eq]
  exact if_congr eq_comm rfl rfl

theorem two_le_usedCount_romFixedD : 2 ≤ usedCount romFixedD := by
  simp [usedCount_eq, usedFrom, lenCount_romFixedD]

theorem build_romFixedD : build romFixedD true = .table (tableEntries romFixedD) :=
  build_of_kraft two_le_usedCount_romFixedD (by simp [List.range_succ, lenCount_romFixedD]) true

theorem romFixedD_getD {d : Nat} (h : d < 32) : romFixedD.getD d 0 = 5 := by
  rw [romFixedD, List.getD_eq_getElem?_getD, List.getElem?_replicate_of_lt h, Option.getD_some]

/-- The code of a distance symbol is its number (R132). -/
theorem followCode_romFixedD (t : Memory Entry) {d : Nat} (h : d < 32) :
    followCode (builtTable (build romFixedD true) t) 0 (codeBits 5 d) = some d := by
  have hfirst : firstCode romFixedD 5 = 0 := by simp [firstCode, lenCount_romFixedD]
  have hcount : (romFixedD.take d).count 5 = d := by
    rw [romFixedD, List.take_replicate, List.count_replicate_self, min_eq_left h.le]
  exact followCode_of_build build_romFixedD two_le_usedCount_romFixedD (by rw [romFixedD_length]; decide) t
    (h.trans_eq romFixedD_length.symm) (romFixedD_getD h) (by decide) (by rw [hfirst, hcount, Nat.zero_add])

/-! The statement. -/

/-- Settles O27: both fixed alphabets are complete, so both are built, and their canonical codes are R132's. -/
theorem fixedTablesStep : Obligations.FixedTablesStep := by
  refine fun s => ⟨_, _, ?_, fun v => followCode_romFixedLL s.tLL, fun d => followCode_romFixedD s.tD⟩
  change finish (fxBuild s) = _
  rw [fxBuild, build_romFixedLL, build_romFixedD]
  rfl

end Sys2Proof.Machine

/-! PROOF. The micro-operations and rows of a dynamic header: CountSteps, ClearLengthsStep, CodeLengthLengthStep,
CodeLengthTableStep, CodeLengthSymbolStep, RepeatStep, DynamicTablesStep, CodeLengthTokens. What a code-length symbol does is
said once, of its act; the micro-operation is a READ or a DECODE before the same act. -/

namespace Sys2Proof.Machine

/-! The counts and the code-length-code lengths (R300 to R303). -/

/-- Without its bits a READ suspends (R202, R431). -/
theorem finish_withRead_of_lt {n : Nat} (hn : n ≤ 16) {s : State} (h : avail s < n) (go : Nat → State → Micro) :
    finish (withRead n s go) = .next (endStep Status.needMoreInput (pull n s)) := by
  rw [withRead_eq n hn, if_pos h]
  rfl

/-- With its bits a READ answers what it goes on to (R203). -/
theorem finish_withRead_of_le {n : Nat} (hn : n ≤ 16) {s : State} (h : n ≤ avail s) (go : Nat → State → Micro) :
    finish (withRead n s go) = finish (go (streamValue n s) (afterRead n s)) :=
  congrArg finish (withRead_of_le hn h go)

/-- Settles O29: a READ of 5 bits, then the count's effect. -/
theorem countSteps : Obligations.CountSteps := by
  refine fun s => ⟨finish_withRead (by decide) fun hav => ?_, finish_withRead (by decide) fun hav => ?_⟩
  · have hact := finish_hlitAct (BitVec.ofNat 5 (streamValue 5 s)) (afterRead 5 s)
    rwa [toNat_ofNat_streamValue hav] at hact
  · have hact := finish_hdistAct (BitVec.ofNat 5 (streamValue 5 s)) (afterRead 5 s)
    rwa [toNat_ofNat_streamValue hav] at hact

/-- Settles O30: a READ of 4 bits, then HCLEN's effect. -/
theorem clearLengthsStep : Obligations.ClearLengthsStep := by
  refine fun s => ⟨fun hav => finish_withRead_of_lt (by decide) hav _, fun hav => ?_⟩
  obtain ⟨m, hread, hact⟩ := finish_hclenAct (BitVec.ofNat 4 (streamValue 4 s)) (afterRead 4 s)
  rw [toNat_ofNat_streamValue hav] at hact
  exact ⟨m, hread, (finish_withRead_of_le (by decide) hav _).trans hact⟩

/-- Settles O31: a READ of 3 bits, then the length is written in ROM_CLORDER's place. -/
theorem codeLengthLengthStep : Obligations.CodeLengthLengthStep := by
  refine fun s hk => ⟨fun hav => finish_withRead_of_lt (by decide) hav _, fun hav => ?_⟩
  obtain ⟨m, hread, hact⟩ := finish_cllAct (BitVec.ofNat 3 (streamValue 3 s)) (s := afterRead 3 s) hk
  exact ⟨m, hread, (finish_withRead_of_le (by decide) hav _).trans hact⟩

/-! The tables (R304, R307). -/

/-- A run of elements known one by one is read as a block. -/
theorem readBlock_of_read {α : Type} {m : Memory α} {vs : List α} {a n : Nat} (hlen : vs.length = n)
    (h : ∀ i, i < n → Memory.read m (a + i) = vs[i]?) : Memory.readBlock m a n = some vs := by
  subst hlen
  induction vs generalizing a with
  | nil => rfl
  | cons v vs ih =>
    have hhead : Memory.read m a = some v := h 0 (Nat.succ_pos _)
    have htail : Memory.readBlock m (a + 1) vs.length = some vs := ih fun i hi => by
      rw [Nat.add_assoc, Nat.add_comm 1 i]
      exact h (i + 1) (Nat.succ_lt_succ hi)
    rw [List.length_cons, Memory.readBlock, hhead, htail]

/-- A table that BUILD writes: its entries from index 0 on, and behind them what was there before (R230, R236). -/
theorem read_builtTable_table (es : List Entry) (t : Memory Entry) (a : Nat) :
    Memory.read (builtTable (.table es) t) a = if a < es.length then es[a]? else Memory.read t a := by
  rw [builtTable, read_writeBlock]
  simp only [Nat.zero_le, true_and, Nat.zero_add, Nat.sub_zero]

/-- Settles O32: the 19 lengths are read as a block, and BUILD's answer selects the outcome. -/
theorem codeLengthTableStep : Obligations.CodeLengthTableStep := by
  intro s ls hlen hread
  have hblock : Memory.readBlock s.clens 0 Config.clSyms = some ls :=
    readBlock_of_read hlen fun i hi => by rw [Nat.zero_add]; exact hread i hi
  rw [show exec .tagDyClbuild s = finish (dyClbuild s) from rfl, dyClbuild, hblock]
  refine ⟨fun r hb => ?_, fun es hb => ⟨_, read_builtTable_table es s.tCL, ?_⟩, build_false_ne_empty _⟩
  all_goals
    simp only [hb]
    rfl

/-- Settles O35: both runs of lengths are read as blocks, and BUILD's answers select the outcome, the LL one first. -/
theorem dynamicTablesStep : Obligations.DynamicTablesStep := by
  intro s ll dl hll hdl hreadl hreadd
  have hblockl : Memory.readBlock s.lens 0 s.hlit.toNat = some ll :=
    readBlock_of_read hll fun i hi => by rw [Nat.zero_add]; exact hreadl i hi
  have hblockd : Memory.readBlock s.lens s.hlit.toNat s.hdist.toNat = some dl :=
    readBlock_of_read hdl hreadd
  rw [show exec .tagDyBuild s = finish (dyBuild s) from rfl, dyBuild, hblockl, hblockd]
  refine ⟨build_false_ne_empty _, fun r hb => ?_, fun es hb => ⟨_, read_builtTable_table es s.tLL, fun r hd => ?_,
    fun hd => ?_, fun ds hd => ⟨_, read_builtTable_table ds s.tD, ?_⟩⟩⟩
  · simp only [hb]
    rfl
  all_goals
    simp only [hb, hd]
    rfl

/-! DECODE with the last bits of a code missing (R240). -/

/-- A code spells a symbol when its first bit leads to the symbol's leaf and is its last, or to a pointer from which the
other bits spell the symbol. -/
theorem followCode_cons {t : Memory Entry} {idx v : Nat} {b : Bool} {bs : List Bool}
    (h : followCode t idx (b :: bs) = some v) : ∃ e, Memory.read t (idx + b.toNat) = some e ∧
      (e.msb = true ∧ followCode t (~~~e).toNat bs = some v ∨ e.msb = false ∧ bs = [] ∧ e.toNat = v) := by
  rw [followCode] at h
  split at h
  · cases h
  next e he =>
    refine ⟨e, he, ?_⟩
    split at h
    next hm => exact .inl ⟨hm, h⟩
    next hm =>
      split at h
      next hbs => exact .inr ⟨Bool.eq_false_iff.2 hm, hbs, Option.some.inj h⟩
      · cases h

/-- The walk from the n-th code bit on, when the stream ends within the code: it asks for the first missing bit. -/
theorem walkFrom_of_partialCode (t : Memory Entry) (got : List Bool) : ∀ (fuel n idx : Nat) (s : State)
    (pre rest : List Bool) (v : Nat), streamBits s = pre ++ got → pre.length + 1 = n → rest ≠ [] → (got ++ rest).length ≤ fuel →
      n + (got ++ rest).length ≤ 17 → followCode t idx (got ++ rest) = some v →
      walkFrom t fuel n idx s = .short (pull (avail s + 1) s) := by
  induction got with
  | nil =>
    intro fuel n idx s pre rest v hs hp hrest hfuel hn _
    have hpos : 0 < rest.length := List.length_pos_iff.2 hrest
    rw [List.nil_append] at hfuel hn
    obtain ⟨fuel, rfl⟩ : ∃ k, fuel = k + 1 := ⟨fuel - 1, by omega⟩
    have hav : avail s + 1 = n := by rw [avail, hs, List.append_nil, hp]
    rw [walkFrom, peek_eq n (show n ≤ 16 by omega), if_pos (by omega), hav]
  | cons b got ih =>
    intro fuel n idx s pre rest v hs hp hrest hfuel hn hf
    rw [List.cons_append, List.length_cons] at hfuel hn
    obtain ⟨fuel, rfl⟩ : ∃ k, fuel = k + 1 := ⟨fuel - 1, by omega⟩
    have hav : n ≤ avail s := by
      rw [avail, hs, List.length_append, List.length_cons]
      omega
    obtain ⟨e, he, ⟨hm, hf⟩ | ⟨-, hnil, -⟩⟩ := followCode_cons hf
    · rw [walkFrom, peek_eq n (show n ≤ 16 by omega), if_neg (Nat.not_lt.2 hav)]
      simp only [streamValue_top_bit n s pre b got hs hp, he, if_pos hm]
      rw [ih fuel (n + 1) (~~~e).toNat (pull n s) (pre ++ [b]) rest v (by rw [streamBits_pull, hs, List.append_cons])
        (by rw [List.length_append, List.length_singleton, hp]) hrest (by omega) (by omega) hf, avail_pull,
        pull_pull n _ (by omega)]
    · exact absurd (List.append_eq_nil_iff.1 hnil).2 hrest

/-- DECODE suspends when the stream bits at hand are only the beginning of a code of its table, and consumes nothing. -/
theorem withSymbol_of_partialCode {t : Memory Entry} {code rest : List Bool} {s : State} {v : Nat}
    (hs : streamBits s ++ rest = code) (hrest : rest ≠ []) (hl : code.length ≤ 15) (hf : followCode t 0 code = some v)
    (go : Nat → State → Micro) : withSymbol t s go = .suspend (pull (avail s + 1) s) := by
  subst hs
  have hwalk : walk t s = .short (pull (avail s + 1) s) :=
    walkFrom_of_partialCode t (streamBits s) 15 1 0 s [] rest v rfl rfl hrest hl (by omega) hf
  rw [withSymbol, hwalk]

/-! The code lengths (R305, R306). -/

/-- A length is written at LENS[J], and J counts up to HLIT + HDIST (R305). -/
theorem finish_clLenAct (v : BitVec 4) {s : State} (hj : s.j.toNat < 320) : ∃ m : Memory (BitVec 4),
    (∀ a, Memory.read m a = if a = s.j.toNat then some v else Memory.read s.lens a) ∧
    finish (clLenAct v s) = .next (afterContinue { s with
      lens := m, lastLen := v, j := s.j + 1#9
      tag := if s.j.toNat + 1 = s.hlit.toNat + s.hdist.toNat then Tag.dyBuild else s.tag }) := by
  refine ⟨Memory.write s.lens s.j.toNat v, fun a => ?_, ?_⟩
  · split
    next ha => rw [ha, read_write_same]
    next ha => exact read_write_other _ _ _ _ ha
  · rw [clLenAct, if_neg (Nat.not_le.2 hj)]
    rfl

/-- A run past HLIT + HDIST is invalid_symbol (R306). -/
theorem finish_fillLens_past {s : State} {n : Nat} (v : BitVec 4) (hn : s.hlit.toNat + s.hdist.toNat < s.j.toNat + n) :
    finish (fillLens n v s) = .next (fatal .invalidSymbol s) := by
  rw [fillLens, lensWanted, if_pos hn]
  rfl

/-- A run within HLIT + HDIST fills LENS from J on, and J counts up to HLIT + HDIST (R306, R47(d)). -/
theorem finish_fillLens {s : State} {n : Nat} (v : BitVec 4) (hroom : s.hlit.toNat + s.hdist.toNat ≤ 320)
    (hn : s.j.toNat + n ≤ s.hlit.toNat + s.hdist.toNat) : ∃ m : Memory (BitVec 4),
    (∀ a, Memory.read m a = if s.j.toNat ≤ a ∧ a < s.j.toNat + n then some v else Memory.read s.lens a) ∧
    finish (fillLens n v s) = .next (afterContinue { s with
      lens := m, lastLen := v, j := BitVec.ofNat 9 (s.j.toNat + n)
      tag := if s.j.toNat + n = s.hlit.toNat + s.hdist.toNat then Tag.dyBuild else Tag.dyLsym }) := by
  refine ⟨Memory.writeBlock s.lens s.j.toNat (List.replicate n v), fun a => ?_, ?_⟩
  · rw [read_writeBlock, List.length_replicate]
    split
    next ha => exact List.getElem?_replicate_of_lt (by omega)
    · rfl
  · have hj : BitVec.ofNat 9 (s.j.toNat + n) = s.j + BitVec.ofNat 9 n := by
      rw [BitVec.ofNat_add, BitVec.ofNat_toNat, BitVec.setWidth_eq]
    rw [fillLens, lensWanted, if_neg (Nat.not_lt.2 hn), if_neg (Nat.not_lt.2 (hn.trans hroom)), hj]
    rfl

/-- A symbol from 16 to 18 that is not a repeat of nothing goes on to its extra bits (R305). -/
theorem lsymAct_repeat {v : Nat} {s : State} (h16 : 16 ≤ v) (h18 : v ≤ 18) (hj : v = 16 → s.j ≠ 0#9) :
    lsymAct v s = awaitExtra v s := by
  rw [lsymAct, if_neg (by omega), if_neg (by omega), if_neg fun h => hj h.1 h.2]

/-- Settles O33: a DECODE, then the symbol's effect; within a code DECODE suspends. -/
theorem codeLengthSymbolStep : Obligations.CodeLengthSymbolStep := by
  intro s code rest v hl hf
  rw [show exec .tagDyLsym s = finish (withSymbol s.tCL s lsymAct) from rfl]
  refine ⟨fun hs => ?_, fun hs hrest => ?_⟩
  · rw [withSymbol_of_followCode hs hl hf]
    refine ⟨fun hv hj => ?_, fun hv hj => ?_, fun h16 h18 hj => ?_⟩
    · rw [lsymAct, if_pos hv]
      exact finish_clLenAct _ (s := afterRead code.length s) hj
    · rw [lsymAct, hv, if_neg (by decide), if_neg (by decide), if_pos ⟨rfl, hj⟩]
      rfl
    · rw [lsymAct_repeat (s := afterRead code.length s) h16 h18 hj]
      rfl
  · rw [withSymbol_of_partialCode hs hrest hl hf]
    rfl

/-- Settles O34: CUR's row selects the width, the base and the value of one READ and one fill. -/
theorem repeatStep : Obligations.RepeatStep := by
  intro s e base v hroom hcur
  have hrun : dyLextra s = if avail s < e then .suspend (pull e s)
      else fillLens (base + streamValue e s) v (afterRead e s) := by
    rw [dyLextra]
    obtain ⟨hc, rfl, rfl, rfl⟩ | ⟨hc, rfl, rfl, rfl⟩ | ⟨hc, rfl, rfl, rfl⟩ := hcur <;> rw [hc] <;>
      exact withRead_eq _ (by decide) s _
  rw [show exec .tagDyLextra s = finish (dyLextra s) from rfl, hrun]
  refine ⟨fun hav => ?_, fun hav hpast => ?_, fun hav hn => ?_⟩
  · rw [if_pos hav]
    rfl
  · rw [if_neg (Nat.not_lt.2 hav)]
    exact finish_fillLens_past (s := afterRead e s) v hpast
  · rw [if_neg (Nat.not_lt.2 hav)]
    exact finish_fillLens (s := afterRead e s) v hroom hn

/-- Settles O43: a CL_LEN row runs as its length's act, REP16, ZERO17 and ZERO18 as their fills. -/
theorem codeLengthTokens : Obligations.CodeLengthTokens := by
  refine ⟨fun s i n hrow hj => ?_, fun s x hj => ?_, fun s i c n v hroom hrow => ?_⟩
  · have hexec : exec i s = finish (clLenAct n s) := by
      fin_cases hrow <;> rfl
    rw [hexec]
    exact finish_clLenAct n hj
  · change finish (rep16Act x s) = _
    rw [rep16Act, if_pos hj]
    rfl
  · have hexec : exec i s = finish (fillLens n v { s with cur := c }) := by
      obtain ⟨hj, rfl, rfl, x, rfl, rfl⟩ | ⟨rfl, rfl, x, rfl, rfl⟩ | ⟨rfl, rfl, x, rfl, rfl⟩ := hrow
      · change finish (rep16Act x s) = _
        rw [rep16Act, if_neg hj]
      · rfl
      · rfl
    rw [hexec]
    exact ⟨finish_fillLens_past (s := { s with cur := c }) v, finish_fillLens (s := { s with cur := c }) v hroom⟩

end Sys2Proof.Machine

/-! PROOF. The symbol phase and its rows, and STEP's entry: SymbolStep, LengthExtraStep, DistanceSymbolStep,
DistanceExtraStep, CopyStep, LiteralLengthTokens, DistanceTokens, CopyRepeatsDistance, StepAccepted. What a symbol does is said
once, of its act; the micro-operation is a READ or a DECODE before the same act. -/

namespace Sys2Proof.Machine

/-! COPY (R342, R347). -/

/-- COPY's source index, whatever DIST is (R342). -/
theorem winIndex_eq (w d : BitVec 16) : winIndex w d = (w.toNat + 65536 - d.toNat) % 32768 := by
  rw [winIndex, BitVec.toNat_sub]
  show _ % 32768 = _
  omega

/-- With its source written and room in the window, COPY puts the source byte once it has left REM (R347). -/
theorem putsByte_copy {s : State} {b : Byte} (hroom : s.wpos.toNat < 32768)
    (hsrc : Memory.read s.win (winIndex s.wpos s.dist) = some b) :
    PutsByte b { s with rem := s.rem - 1#16, tag := if s.rem = 1#16 then Tag.sym else s.tag } (finish (copy s)) := by
  rw [← countDown_eq, copy, hsrc]
  exact putsByte_put b hroom

/-- Settles O40: the source is read at COPY's index, and PUT has room. -/
theorem copyStep : Obligations.CopyStep := fun _ _ hroom hsrc =>
  putsByte_copy hroom ((congrArg _ (winIndex_eq _ _)).trans hsrc)

/-! An overlapping copy (R348). -/

/-- The index that byte `j` of a copy begun in `s` is read from (R342, R348). -/
def copySource (s : State) (j : Nat) : Nat := (s.wpos.toNat + j + 32768 - s.dist.toNat) % 32768

/-- A copy's first byte is read at COPY's index. -/
theorem winIndex_eq_copySource {s : State} (hd : s.dist.toNat ≤ 32768) : winIndex s.wpos s.dist = copySource s 0 :=
  winIndex_eq_backIndex s hd

/-- What one COPY that does not fill the window leaves: its source byte at WPOS, and WPOS one further (R347, R340). -/
structure CopiesByte (s u : State) : Prop where
  wpos : u.wpos.toNat = s.wpos.toNat + 1
  dist : u.dist = s.dist
  win : ∀ a, Memory.read u.win a =
    if a = s.wpos.toNat then Memory.read s.win (copySource s 0) else Memory.read s.win a

theorem exec_tagCopy_copiesByte {s : State} (hw : s.wpos.toNat + 1 < 32768) (hd : s.dist.toNat ≤ 32768)
    (hsrc : (Memory.read s.win (copySource s 0)).isSome) : ∃ u, exec .tagCopy s = .next u ∧ CopiesByte s u := by
  obtain ⟨b, hb⟩ := Option.isSome_iff_exists.1 hsrc
  obtain ⟨w, hwin, hexec⟩ := putsByte_copy (Nat.lt_of_succ_lt hw) (by rwa [winIndex_eq_copySource hd])
  rw [if_neg hw.ne] at hexec
  exact ⟨_, hexec, wpos_succ_toNat (Nat.lt_of_succ_lt hw), rfl, hb ▸ hwin⟩

/-- The byte just copied is at WPOS. -/
theorem CopiesByte.read_wpos {s u : State} (h : CopiesByte s u) :
    Memory.read u.win s.wpos.toNat = Memory.read s.win (copySource s 0) := by
  rw [h.win, if_pos rfl]

/-- The rest of a copy has the sources of its remaining bytes. -/
theorem CopiesByte.copySource_eq_succ {s u : State} (h : CopiesByte s u) (j : Nat) : copySource u j = copySource s (j + 1) := by
  rw [copySource, copySource, h.wpos, h.dist, Nat.add_assoc _ 1, Nat.add_comm 1]

/-- A byte before byte DIST does not have the copy's first byte as its source, so its source is kept (R348). -/
theorem CopiesByte.read_copySource {s u : State} (h : CopiesByte s u) (hw : s.wpos.toNat < 32768)
    (hd : s.dist.toNat ≤ 32768) {j : Nat} (hj : j + 1 < s.dist.toNat) :
    Memory.read u.win (copySource u j) = Memory.read s.win (copySource s (j + 1)) := by
  have hne : copySource s (j + 1) ≠ s.wpos.toNat := by
    rw [copySource]
    omega
  rw [h.copySource_eq_succ, h.win, if_neg hne]

/-- Byte DIST has its source in the copy's first byte (R348). -/
theorem CopiesByte.copySource_eq_wpos {s u : State} (h : CopiesByte s u) (hw : s.wpos.toNat < 32768) {j : Nat}
    (hj : j + 1 = s.dist.toNat) : copySource u j = s.wpos.toNat := by
  rw [h.copySource_eq_succ, hj, copySource]
  omega

/-- Settles O48, by induction on the bytes left: the byte of the first COPY is the source of byte DIST, and of no byte before
it. -/
theorem copyRepeatsDistance : Obligations.CopyRepeatsDistance := by
  intro n
  induction n with
  | zero => exact fun s _ _ _ _ => ⟨s, rfl, rfl, fun _ _ => rfl, fun j hj => absurd hj j.not_lt_zero⟩
  | succ n ih =>
    intro s hw hd1 hd hsrc
    have hroom : s.wpos.toNat < 32768 := by omega
    obtain ⟨u, hexec, hu⟩ := exec_tagCopy_copiesByte (by omega) hd (hsrc 0 n.succ_pos hd1)
    have huw := hu.wpos
    have hud : u.dist.toNat = s.dist.toNat := congrArg _ hu.dist
    have hsrcu : ∀ j, j < n → j < u.dist.toNat → (Memory.read u.win (copySource u j)).isSome := fun j hj hjd => by
      obtain h | h : j + 1 < s.dist.toNat ∨ j + 1 = s.dist.toNat := by omega
      · rw [hu.read_copySource hroom hd h]
        exact hsrc (j + 1) (Nat.succ_lt_succ hj) h
      · rw [hu.copySource_eq_wpos hroom h, hu.read_wpos]
        exact hsrc 0 n.succ_pos hd1
    obtain ⟨t, hrun, htw, hframe, hbytes⟩ := ih u (by omega) (by omega) (by omega) hsrcu
    have hfirst : Memory.read t.win s.wpos.toNat = Memory.read u.win s.wpos.toNat := hframe _ (.inl (by omega))
    refine ⟨t, ⟨u, hexec, hrun⟩, by omega, fun a ha => ?_, fun j hj => ?_⟩
    · rw [hframe a (by omega), hu.win, if_neg (by omega)]
    · change _ = if j < _ then Memory.read s.win (copySource s j) else _
      cases j with
      | zero => exact (hfirst.trans hu.read_wpos).trans (if_pos hd1).symm
      | succ j =>
        have hbyte : Memory.read t.win (u.wpos.toNat + j) = if j < u.dist.toNat then Memory.read u.win (copySource u j)
          else Memory.read t.win (u.wpos.toNat + j - u.dist.toNat) := hbytes j (Nat.lt_of_succ_lt_succ hj)
        have hidx : s.wpos.toNat + (j + 1) = u.wpos.toNat + j := by omega
        rw [hidx, hbyte, hud]
        obtain h | h | h := lt_trichotomy (j + 1) s.dist.toNat
        · rw [if_pos (by omega), if_pos h, hu.read_copySource hroom hd h]
        · have hback : u.wpos.toNat + j - s.dist.toNat = s.wpos.toNat := by omega
          rw [if_pos (by omega), if_neg h.not_lt, hu.copySource_eq_wpos hroom h, hback, hfirst]
        · rw [if_neg (by omega), if_neg h.not_gt]

/-! Symbols (R343, R345). -/

/-- SYM's choice on a literal (R343). -/
theorem symAct_lit {v : Nat} (h : v < 256) (s : State) : symAct v s = put (BitVec.ofNat 8 v) s := if_pos h

/-- SYM's choice on a symbol without a meaning (R343). -/
theorem symAct_invalid {v : Nat} (h : 285 < v) (s : State) : symAct v s = badSymbolAct s := by
  rw [symAct, if_neg (by omega), if_neg (by omega), if_pos h]

/-- SYM's choice on a length symbol (R343). -/
theorem symAct_length {v : Nat} (h257 : 257 ≤ v) (h285 : v ≤ 285) (s : State) :
    symAct v s = .cont { s with cur := BitVec.ofNat 9 v, tag := Tag.lenExtra } := by
  rw [symAct, if_neg (by omega), if_neg (by omega), if_neg (by omega)]

/-- Settles O36: a DECODE, then SYM's choice; within a code DECODE suspends. -/
theorem symbolStep : Obligations.SymbolStep := by
  intro s code rest v hl hf
  rw [show exec .tagSym s = finish (withSymbol s.tLL s symAct) from rfl]
  refine ⟨fun hs => ?_, fun hs hrest => ?_⟩
  · rw [withSymbol_of_followCode hs hl hf]
    refine ⟨fun hlit hroom => ?_, fun heob => ?_, fun hbad => ?_, fun h257 h285 => ?_⟩
    · rw [symAct_lit hlit]
      exact putsByte_put _ (s := afterRead code.length s) hroom
    · rw [heob]
      rfl
    · rw [symAct_invalid hbad]
      rfl
    · rw [symAct_length h257 h285]
      rfl
  · rw [withSymbol_of_partialCode hs hrest hl hf]
    rfl

/-- DSYM's choice: a symbol from 30 on is invalid_symbol (R345). -/
theorem finish_dsymAct (v : Nat) (s : State) : finish (dsymAct v s) = .next
    (if 30 ≤ v then fatal .invalidSymbol s else afterContinue { s with dsym := BitVec.ofNat 5 v, tag := Tag.distExtra }) := by
  rw [dsymAct]
  exact (apply_ite finish _ _ _).trans (apply_ite Host.Outcome.next _ _ _).symm

/-- Settles O38: an empty D table is an error at once; else a DECODE, then DSYM's choice; within a code DECODE suspends. -/
theorem distanceSymbolStep : Obligations.DistanceSymbolStep := by
  refine ⟨fun s hempty => ?_, fun s code rest v hd hl hf => ⟨fun hs => ?_, fun hs hrest => ?_⟩⟩
  · change finish (dsym s) = _
    rw [dsym, if_pos hempty]
    rfl
  · rw [exec_tagDsym hd, withSymbol_of_followCode hs hl hf]
    exact finish_dsymAct v _
  · rw [exec_tagDsym hd, withSymbol_of_partialCode hs hrest hl hf]
    rfl

/-! Extra bits (R344, R346). -/

/-- A length symbol leaves MLEN = LBASE + X (R129, R344). -/
theorem finish_lengthAct {v b e : Nat} (h : romLen v = some (b, e)) (x : Nat) (s : State) :
    finish (lengthAct v x s) = .next (afterContinue { s with
      cur := BitVec.ofNat 9 v, mlen := BitVec.ofNat 9 (b + x), tag := Tag.dsym }) := by
  rw [lengthAct_of_row h]
  rfl

/-- Settles O37: a READ of the row's extra bits, then the effect of CUR. -/
theorem lengthExtraStep : Obligations.LengthExtraStep := by
  intro s b e hrow
  change finish (lenExtra s) = _
  rw [lenExtra, hrow]
  refine finish_withRead (romLen_extra_le hrow) fun _ => ?_
  have hact := finish_lengthAct hrow (streamValue e s) (afterRead e s)
  rwa [ofNat_of_toNat_eq (x := s.cur) rfl] at hact

/-- A distance symbol leaves DIST = DBASE + X; a distance above HIST is invalid_distance, any other begins the copy (R130,
R346). -/
theorem finish_distanceAct {v b e : Nat} (h : romDist v = some (b, e)) (x : Nat) (s : State) :
    finish (distanceAct v x s) = .next
      (if s.hist.toNat < b + x then
        fatal .invalidDistance { s with dsym := BitVec.ofNat 5 v, dist := BitVec.ofNat 16 (b + x) }
      else afterContinue { s with
        dsym := BitVec.ofNat 5 v, dist := BitVec.ofNat 16 (b + x), rem := BitVec.ofNat 16 s.mlen.toNat, tag := Tag.copy }) := by
  by_cases hx : s.hist.toNat < b + x
  · rw [if_pos hx, distanceAct, h]
    simp only [if_pos hx]
    rfl
  · rw [if_neg hx, distanceAct_of_row h (Nat.not_lt.1 hx)]
    rfl

/-- Settles O39: a READ of the row's extra bits, then the effect of DSYM. -/
theorem distanceExtraStep : Obligations.DistanceExtraStep := by
  intro s b e hrow
  change finish (distExtra s) = _
  rw [distExtra, hrow]
  refine finish_withRead (romDist_extra_le hrow) fun _ => ?_
  have hact := finish_distanceAct hrow (streamValue e s) (afterRead e s)
  rwa [ofNat_of_toNat_eq (x := s.dsym) rfl] at hact

/-! The LLSYM and DSYM rows. -/

/-- Settles O44: every LEN row runs as its symbol's act, whose base ROM_LEN holds. -/
theorem literalLengthTokens : Obligations.LiteralLengthTokens := by
  refine ⟨fun s b hroom => putsByte_put b hroom, fun _ => rfl, fun _ => rfl, fun _ => rfl, fun s i c l hrow => ?_⟩
  obtain ⟨b, e, x, hrom, rfl, hexec⟩ :
      ∃ b e x, romLen c = some (b, e) ∧ l = b + x ∧ exec i s = finish (lengthAct c x s) := by
    iterate 8
      obtain ⟨rfl, rfl, rfl⟩ | hrow := hrow
      · exact ⟨_, _, 0, rfl, rfl, rfl⟩
    iterate 20
      obtain ⟨x, rfl, rfl, rfl⟩ | hrow := hrow
      · exact ⟨_, _, x.toNat, rfl, rfl, rfl⟩
    obtain ⟨rfl, rfl, rfl⟩ := hrow
    exact ⟨_, _, 0, rfl, rfl, rfl⟩
  rw [hexec]
  exact finish_lengthAct hrom x s

/-- Settles O45: every DIST row runs as its symbol's act, whose base ROM_DIST holds. -/
theorem distanceTokens : Obligations.DistanceTokens := by
  refine ⟨fun _ => rfl, fun _ => rfl, fun s i c d hrow => ?_⟩
  obtain ⟨b, e, x, hrom, rfl, hexec⟩ :
      ∃ b e x, romDist c = some (b, e) ∧ d = b + x ∧ exec i s = finish (distanceAct c x s) := by
    iterate 4
      obtain ⟨rfl, rfl, rfl⟩ | hrow := hrow
      · exact ⟨_, _, 0, rfl, rfl, rfl⟩
    iterate 25
      obtain ⟨x, rfl, rfl, rfl⟩ | hrow := hrow
      · exact ⟨_, _, x.toNat, rfl, rfl, rfl⟩
    obtain ⟨x, rfl, rfl, rfl⟩ := hrow
    exact ⟨_, _, x.toNat, rfl, rfl, rfl⟩
  rw [hexec]
  exact finish_distanceAct hrom x s

/-! STEP's entry (R341, R431). -/

/-- A STEP that is accepted acknowledges the pending flush (R341). -/
theorem beginStep_eq (s : State) : beginStep s =
    if s.flushPending = true then { s with wpos := 0#16, outLen := 0#16, flushPending := false, stepping := true }
    else { s with stepping := true } := by
  obtain ⟨hf, hack⟩ | ⟨hf, hack⟩ := ackFlush_cases s <;> rw [beginStep, hack, hf] <;> rfl

/-- Settles O5: by TAG's kind, then by the pending flush. -/
theorem stepAccepted : Obligations.StepAccepted := by
  intro s
  change execStep s = _
  simp only [execStep, tagTerminal_iff, tagReserved, decide_eq_true_eq, beginStep_eq]
  rfl

end Sys2Proof.Machine

/-! PROOF. CRC_UPDATE and ROM_CRC (R380, R381): CrcFoldsBits. The one-bit step is linear over XOR in a part whose lowest bit
is 0, so only the low byte of CRC XOR the byte, ROM_CRC's index, decides which polynomials are folded in. -/

namespace Sys2Proof.Machine

/-- ROM_CRC's construction is the iteration of its one-bit step (R380). -/
theorem crcShifts_eq_iterate (n : Nat) (x : BitVec 32) : crcShifts n x = crcShift^[n] x := by
  induction n generalizing x with
  | zero => rfl
  | succ n ih => exact ih (crcShift x)

/-- A part whose lowest bit is 0 only shifts: it does not decide whether the polynomial is folded in. -/
theorem crcShift_xor (x h : BitVec 32) (h0 : h.getLsbD 0 = false) : crcShift (x ^^^ h) = crcShift x ^^^ (h >>> 1) := by
  have hbit : (x ^^^ h).getLsbD 0 = x.getLsbD 0 := by rw [BitVec.getLsbD_xor, h0, Bool.xor_false]
  rw [crcShift, crcShift, hbit, BitVec.ushiftRight_xor_distrib]
  split
  · rw [BitVec.xor_assoc, BitVec.xor_assoc, BitVec.xor_comm crcPoly]
  · rfl

/-- A part whose `n` lowest bits are 0 only shifts in `n` steps. -/
theorem crcShifts_xor (n : Nat) (x h : BitVec 32) (hlow : ∀ i, i < n → h.getLsbD i = false) :
    crcShifts n (x ^^^ h) = crcShifts n x ^^^ (h >>> n) := by
  induction n generalizing x h with
  | zero => rfl
  | succ n ih =>
    have hnext : ∀ i, i < n → (h >>> 1).getLsbD i = false := fun i hi => by
      rw [BitVec.getLsbD_ushiftRight]
      exact hlow (1 + i) (by omega)
    calc crcShifts (n + 1) (x ^^^ h)
        = crcShifts n (crcShift x ^^^ (h >>> 1)) := congrArg (crcShifts n) (crcShift_xor x h (hlow 0 n.succ_pos))
      _ = crcShifts (n + 1) x ^^^ (h >>> (n + 1)) := by
        rw [ih _ _ hnext, ← BitVec.shiftRight_add, Nat.add_comm 1 n, crcShifts]

/-- CRC XOR the byte is ROM_CRC's index XOR the upper 24 bits of CRC, in place (R381). -/
theorem crc_xor_byte_split (c : BitVec 32) (b : Byte) :
    c ^^^ b.setWidth 32 = ((c ^^^ b.setWidth 32).setWidth 8).setWidth 32 ^^^ (c >>> 8 <<< 8) := by
  ext i hi
  by_cases hlow : i < 8
  · simp [hlow, BitVec.getLsbD_eq_getElem hi]
  · have hb : b.getLsbD i = false := BitVec.getLsbD_of_ge b i (by omega)
    simp [hlow, hb, hi, Nat.add_sub_cancel' (Nat.le_of_not_lt hlow)]

/-- The upper 24 bits of CRC, in place, shift down to CRC's own shift. -/
theorem ushiftRight_shiftLeft_ushiftRight (c : BitVec 32) : c >>> 8 <<< 8 >>> 8 = c >>> 8 := by
  ext i hi
  simpa using BitVec.lt_of_getLsbD (x := c) (i := 8 + i)

/-- Settles O47: the index folds through ROM_CRC's eight steps, and the upper 24 bits of CRC only shift. -/
theorem crcFoldsBits : Obligations.CrcFoldsBits := by
  intro c b
  have hlow : ∀ i, i < 8 → (c >>> 8 <<< 8).getLsbD i = false := fun i hi => by simp [hi]
  calc crcUpdate c b
      = crcShifts 8 (((c ^^^ b.setWidth 32).setWidth 8).setWidth 32) ^^^ (c >>> 8) := rfl
    _ = crcShifts 8 (((c ^^^ b.setWidth 32).setWidth 8).setWidth 32 ^^^ (c >>> 8 <<< 8)) := by
        rw [crcShifts_xor 8 _ _ hlow, ushiftRight_shiftLeft_ushiftRight]
    _ = crcShifts 8 (c ^^^ b.setWidth 32) := by rw [← crc_xor_byte_split]
    _ = crcShift^[8] (c ^^^ b.setWidth 32) := crcShifts_eq_iterate 8 _

end Sys2Proof.Machine

/-! PROOF. Every STEP ends: StepTerminates. A micro-operation that goes on consumes a stream bit or fills a byte of the
window, unless it is one of six, each of which hands over to a micro-operation that is none of them. -/

namespace Sys2Proof.Machine

/-! The measure (R440). -/

/-- What a STEP can still use up: the stream bits at hand and the bytes WIN has room for. -/
def workLeft (s : State) : Nat := avail s + (32768 - s.wpos.toNat)

/-- The micro-operations that may go on without a stream bit consumed or a byte produced. -/
def setsUp (t : BitVec 5) : Bool :=
  [Tag.zhdr, Tag.fxBuild, Tag.dyClbuild, Tag.dyBuild, Tag.lenExtra, Tag.distExtra].contains t

/-- What each micro-step that goes on makes smaller: twice what is left, and one while a micro-operation sets up. -/
def stepMeasure (s : State) : Nat := 2 * workLeft s + (setsUp s.tag).toNat

/-- A micro-step from `s` that goes on uses something up, or it only sets up what does. -/
inductive Advances (s : State) : Micro → Prop where
  | uses {u : State} (h : workLeft u < workLeft s) : Advances s (.cont u)
  | setUp {u : State} (h : workLeft u ≤ workLeft s) (hs : setsUp s.tag = true) (hu : setsUp u.tag = false) :
      Advances s (.cont u)
  | event {e : Event} {u : State} : Advances s (.event e u)
  | suspend {u : State} : Advances s (.suspend u)
  | raise {k : ErrKind} {u : State} : Advances s (.raise k u)
  | stop {f : Fault} : Advances s (.stop f)

/-- Once STEP has dealt with the outcome, the STEP is over or the measure is smaller (R431). -/
theorem Advances.ended_or_less {s t : State} {m : Micro} (hm : Advances s m) (h : finish m = .next t) :
    t.stepping = false ∨ stepMeasure t < stepMeasure s := by
  cases hm with
  | @uses u hu =>
    cases h
    have hflag : (setsUp u.tag).toNat ≤ 1 := Bool.toNat_le _
    refine .inr ?_
    change 2 * workLeft u + (setsUp u.tag).toNat < _
    rw [stepMeasure]
    omega
  | @setUp u hu hs hflag =>
    cases h
    refine .inr ?_
    change 2 * workLeft u + (setsUp u.tag).toNat < _
    rw [stepMeasure, hs, hflag, Bool.toNat_false, Bool.toNat_true]
    omega
  | event => cases h; exact .inl rfl
  | suspend => cases h; exact .inl rfl
  | raise => cases h; exact .inl rfl
  | stop => cases h

/-! The bit reader, the symbol walker, BUILD and PUT. -/

theorem workLeft_drop_le (n : Nat) (s : State) : workLeft (drop n s) ≤ workLeft s := by
  simp only [workLeft, avail_eq, drop_acc, drop_span, drop_ipos, drop_wpos, List.length_drop]
  omega

theorem workLeft_pull (n : Nat) (s : State) : workLeft (pull n s) = workLeft s := by
  rw [workLeft, avail_pull, pull_wpos, workLeft]

theorem workLeft_afterRead {n : Nat} {s : State} (h : n ≤ avail s) : workLeft (afterRead n s) + n = workLeft s := by
  have hw : (afterRead n s).wpos = s.wpos := rfl
  rw [workLeft, workLeft, avail_afterRead n s h, hw]
  omega

theorem workLeft_putByte_lt (v : Byte) {s : State} (h : s.wpos.toNat < 32768) : workLeft (putByte v s) < workLeft s := by
  have hav : avail (putByte v s) = avail s := rfl
  rw [workLeft, workLeft, hav, putByte_wpos, wpos_succ_toNat h]
  omega

theorem advances_read {s : State} {n : Nat} (hn : n ≤ 16) {go : Nat → State → Micro}
    (hgo : ∀ v, workLeft (afterRead n s) + n = workLeft s → Advances s (go v (afterRead n s))) :
    Advances s (withRead n s go) := by
  rw [withRead_eq n hn]
  split
  · exact .suspend
  next hav => exact hgo _ (workLeft_afterRead (Nat.not_lt.1 hav))

/-- A field of at least one bit leaves less. -/
theorem advances_field {s : State} {n : Nat} (h1 : 1 ≤ n) (hn : n ≤ 16) {go : Nat → State → Micro}
    (hgo : ∀ v, workLeft (afterRead n s) < workLeft s → Advances s (go v (afterRead n s))) :
    Advances s (withRead n s go) :=
  advances_read hn fun v h => hgo v (by omega)

/-- A symbol's code has at least one bit (R240). -/
theorem advances_symbol {s : State} {t : Memory Entry} {go : Nat → State → Micro}
    (hgo : ∀ v k, workLeft (afterRead k s) < workLeft s → Advances s (go v (afterRead k s))) :
    Advances s (withSymbol t s go) := by
  rcases walk_cases t s with ⟨k, e, i, h1, -, hav, -, -, hw⟩ | ⟨k, -, -, -, hw⟩ | ⟨k, -, -, hw⟩ | hw <;>
    rw [withSymbol, hw]
  · have hleft := workLeft_afterRead hav
    exact hgo _ k (by omega)
  · exact .suspend
  · exact .raise
  · exact .stop

theorem advances_build {s u : State} {b : Built} {go : State → Micro} (hgo : Advances s (go u)) :
    Advances s (withBuild b u go) := by
  rcases withBuild_cases b u go with ⟨r, -, hw⟩ | ⟨-, hw⟩ <;> rw [hw]
  · exact .raise
  · exact hgo

theorem advances_put {s u : State} (h : workLeft u ≤ workLeft s) (v : Byte) : Advances s (put v u) := by
  rcases lt_or_ge u.wpos.toNat 32768 with hroom | hfull
  · rw [put_room v u hroom]
    split
    · exact .event
    · exact .uses (lt_of_lt_of_le (workLeft_putByte_lt v hroom) h)
  · rw [put_full v u hfull]
    exact .stop

/-! Headers, stored blocks and the end of a block. -/

theorem advances_zhdr {s : State} (ht : s.tag = Tag.zhdr) : Advances s (zhdr s) := by
  have hset : setsUp s.tag = true := by rw [ht]; rfl
  have hpull := (workLeft_pull 16 s).le
  rw [zhdr, withPeek_eq 16 le_rfl, zhdrAct]
  split
  · exact .suspend
  · split
    · split
      · exact .raise
      · exact .setUp ((workLeft_drop_le 16 _).trans hpull) hset rfl
    · exact .setUp hpull hset rfl

theorem advances_bhdr (s : State) : Advances s (bhdr s) := by
  unfold bhdr
  split
  · exact .stop
  · refine advances_field (by decide) (by decide) fun v h => ?_
    unfold bhdrAct
    split
    · exact .uses (lt_of_le_of_lt (workLeft_drop_le _ (afterRead 3 s)) h)
    · exact .uses h
    · exact .uses h
    · exact .raise

theorem advances_stLen (s : State) : Advances s (stLen s) := by
  refine advances_field (by decide) (by decide) fun v h => ?_
  unfold lenAct
  split <;> exact .uses h

theorem advances_stNlen (s : State) : Advances s (stNlen s) := by
  refine advances_field (by decide) (by decide) fun v h => ?_
  unfold nlenAct
  split
  · exact .uses h
  · exact .raise

theorem advances_stCopy (s : State) : Advances s (stCopy s) :=
  advances_field (by decide) (by decide) fun _ h => advances_put (u := countDown _ (afterRead 8 s)) h.le _

theorem advances_blkEnd (s : State) : Advances s (blkEnd s) := by
  unfold blkEnd
  split
  · split <;> exact .event
  · exact .event

/-! The tables. -/

/-- The LL and the D build go over to SYM, which sets nothing up (R276, R307). -/
theorem advances_symbolTables {s : State} (hset : setsUp s.tag = true) (ll dl : List Nat) (e : Bool) :
    Advances s (withBuild (build ll false) s fun s1 =>
      withBuild (build dl true) { s1 with tLL := builtTable (build ll false) s1.tLL } fun s2 =>
        .cont { s2 with tD := builtTable (build dl true) s2.tD, dEmpty := e, tag := Tag.sym }) :=
  advances_build (advances_build (.setUp (le_refl (workLeft s)) hset rfl))

theorem advances_fxBuild {s : State} (ht : s.tag = Tag.fxBuild) : Advances s (fxBuild s) :=
  advances_symbolTables (by rw [ht]; rfl) romFixedLL romFixedD false

theorem advances_dyBuild {s : State} (ht : s.tag = Tag.dyBuild) : Advances s (dyBuild s) := by
  unfold dyBuild
  split
  · exact advances_symbolTables (by rw [ht]; rfl) _ _ _
  · exact .stop

theorem advances_dyClbuild {s : State} (ht : s.tag = Tag.dyClbuild) : Advances s (dyClbuild s) := by
  unfold dyClbuild
  split
  · exact .stop
  · exact advances_build (.setUp (le_refl (workLeft s)) (by rw [ht]; rfl) rfl)

/-! The dynamic header. -/

theorem advances_dyHlit (s : State) : Advances s (dyHlit s) := by
  refine advances_field (by decide) (by decide) fun v h => ?_
  unfold hlitAct
  split
  · exact .raise
  · exact .uses h

theorem advances_dyHdist (s : State) : Advances s (dyHdist s) := by
  refine advances_field (by decide) (by decide) fun v h => ?_
  unfold hdistAct
  split
  · exact .raise
  · exact .uses h

theorem advances_dyHclen (s : State) : Advances s (dyHclen s) :=
  advances_field (by decide) (by decide) fun _ h => .uses h

theorem advances_dyCll (s : State) : Advances s (dyCll s) := by
  refine advances_field (by decide) (by decide) fun v h => ?_
  unfold cllAct
  split
  · exact .stop
  · exact .uses h

theorem advances_dyLsym (s : State) : Advances s (dyLsym s) := by
  refine advances_symbol fun v k h => ?_
  unfold lsymAct
  split
  · unfold clLenAct
    split
    · exact .stop
    · exact .uses h
  · split
    · exact .stop
    · split
      · exact .raise
      · exact .uses h

theorem advances_fillLens {s u : State} (h : workLeft u < workLeft s) (n : Nat) (v : BitVec 4) :
    Advances s (fillLens n v u) := by
  unfold fillLens
  split
  · exact .raise
  · split
    · exact .stop
    · exact .uses h

theorem advances_dyLextra (s : State) : Advances s (dyLextra s) := by
  unfold dyLextra
  split
  · exact advances_field (by decide) (by decide) fun _ h => advances_fillLens h _ _
  · exact advances_field (by decide) (by decide) fun _ h => advances_fillLens h _ _
  · exact advances_field (by decide) (by decide) fun _ h => advances_fillLens h _ _
  · exact .stop

/-! The symbol phase. -/

theorem advances_sym (s : State) : Advances s (sym s) := by
  refine advances_symbol fun v k h => ?_
  unfold symAct
  split
  · exact advances_put h.le _
  · split
    · exact .uses h
    · split
      · exact .raise
      · exact .uses h

/-- A length symbol may have no extra bits (R129). -/
theorem advances_lenExtra {s : State} (ht : s.tag = Tag.lenExtra) : Advances s (lenExtra s) := by
  unfold lenExtra
  split
  · exact .stop
  next b e hrow =>
    refine advances_read (romLen_extra_le hrow) fun v h => ?_
    unfold lengthAct
    split
    · exact .stop
    · exact .setUp (Nat.le.intro h) (by rw [ht]; rfl) rfl

theorem advances_dsym (s : State) : Advances s (dsym s) := by
  unfold dsym
  split
  · exact .raise
  · refine advances_symbol fun v k h => ?_
    unfold dsymAct
    split
    · exact .raise
    · exact .uses h

/-- A distance symbol may have no extra bits (R130). -/
theorem advances_distExtra {s : State} (ht : s.tag = Tag.distExtra) : Advances s (distExtra s) := by
  unfold distExtra
  split
  · exact .stop
  next b e hrow =>
    refine advances_read (romDist_extra_le hrow) fun v h => ?_
    unfold distanceAct
    split
    · exact .stop
    · split
      · exact .raise
      · exact .setUp (Nat.le.intro h) (by rw [ht]; rfl) rfl

theorem advances_copy (s : State) : Advances s (copy s) := by
  unfold copy
  split
  · exact .stop
  · exact advances_put (u := copyCount s) (le_refl (workLeft s)) _

/-! All of them. -/

/-- The micro-operation that TAG selects advances its STEP. -/
theorem Selects.advances {s : State} {m : Micro} (hm : Selects s m) : Advances s m := by
  cases hm with
  | zhdr ht => exact advances_zhdr ht
  | bhdr _ => exact advances_bhdr s
  | stLen _ => exact advances_stLen s
  | stNlen _ => exact advances_stNlen s
  | stCopy _ => exact advances_stCopy s
  | fxBuild ht => exact advances_fxBuild ht
  | dyHlit _ => exact advances_dyHlit s
  | dyHdist _ => exact advances_dyHdist s
  | dyHclen _ => exact advances_dyHclen s
  | dyCll _ => exact advances_dyCll s
  | dyClbuild ht => exact advances_dyClbuild ht
  | dyLsym _ => exact advances_dyLsym s
  | dyLextra _ => exact advances_dyLextra s
  | dyBuild ht => exact advances_dyBuild ht
  | sym _ => exact advances_sym s
  | lenExtra ht => exact advances_lenExtra ht
  | dsym _ => exact advances_dsym s
  | distExtra ht => exact advances_distExtra ht
  | copy _ => exact advances_copy s
  | blkEnd _ => exact advances_blkEnd s
  | fin _ => exact .event

/-- A step during a STEP ends it or leaves a smaller measure; a TAG without a micro-operation ends it at once (R431). -/
theorem ended_or_less_of_step {s t : State} (hs : s.stepping = true) (h : step s = .next t) :
    t.stepping = false ∨ stepMeasure t < stepMeasure s := by
  rcases step_of_stepping hs with ⟨-, he⟩ | ⟨-, he⟩ | ⟨m, hm, he⟩ <;> rw [he] at h
  · cases h; exact .inl rfl
  · cases h; exact .inl rfl
  · exact hm.advances.ended_or_less h

/-- A STEP whose measure is below `n` is over after `n` steps at most. -/
theorem Inv.step_ends (n : Nat) {s : State} (h : Inv s) (hs : s.stepping = true) (hn : stepMeasure s < n) :
    ∃ k t, k ≤ n ∧ Reaches k s t ∧ t.stepping = false := by
  induction n generalizing s with
  | zero => exact absurd hn (Nat.not_lt_zero _)
  | succ n ih =>
    obtain ⟨u, hu, hinv⟩ := h.step
    cases hus : u.stepping with
    | false => exact ⟨1, u, Nat.le_add_left 1 n, ⟨u, hu, rfl⟩, hus⟩
    | true =>
      have hless := (ended_or_less_of_step hs hu).resolve_left (by simp [hus])
      obtain ⟨k, t, hk, hreach, ht⟩ := ih hinv hus (by omega)
      exact ⟨k + 1, t, Nat.succ_le_succ hk, ⟨u, hu, hreach⟩, ht⟩

/-- Settles O60: by induction on the measure, which is at most one more than twice the bits at hand and the bytes of a
window. -/
theorem stepTerminates : Obligations.StepTerminates := by
  intro s h hs
  obtain ⟨n, t, hn, hreach, ht⟩ := h.step_ends (stepMeasure s + 1) hs (Nat.lt_succ_self _)
  have hflag : (setsUp s.tag).toNat ≤ 1 := Bool.toNat_le _
  have havail := avail_eq s
  refine ⟨n, t, ?_, hreach, ht⟩
  rw [stepMeasure, workLeft] at hn
  omega

end Sys2Proof.Machine

/-! PROOF. The zlib-style header and the ZHDR16 and BHDR3 rows: ZlibHeaderStep, HeaderTokens. -/

namespace Sys2Proof.Machine

/-- The header test on V as a number (R420). -/
theorem isZlibHeader_ofNat {v : Nat} (hv : v < 2 ^ 16) :
    isZlibHeader (BitVec.ofNat 16 v) = true ↔ v &&& 0x8F00 = 0x0800 ∧ v % 31 = 0 := by
  have hnat : (BitVec.ofNat 16 v).toNat = v := Nat.mod_eq_of_lt hv
  rw [isZlibHeader, Bool.and_eq_true, beq_iff_eq, beq_iff_eq, ← BitVec.toNat_inj, BitVec.toNat_and, hnat]
  rfl

/-- FDICT is bit 5 of V as a number (R122). -/
theorem hasFdict_ofNat {v : Nat} (hv : v < 2 ^ 16) : hasFdict (BitVec.ofNat 16 v) = true ↔ v &&& 0x20 ≠ 0 := by
  have hnat : (BitVec.ofNat 16 v).toNat = v := Nat.mod_eq_of_lt hv
  have hand : v &&& 0x20 = (v.testBit 5).toNat * 2 ^ 5 := Nat.and_two_pow v 5
  rw [hasFdict, BitVec.getLsbD, hnat, hand]
  cases v.testBit 5 <;> decide

/-- ZHDR's choice on V as a number (R420). -/
theorem finish_zhdrAct {v : Nat} (hv : v < 2 ^ 16) (s : State) : finish (zhdrAct (BitVec.ofNat 16 v) s) = .next
    (if v &&& 0x8F00 = 0x0800 ∧ v % 31 = 0 then
      if v &&& 0x20 ≠ 0 then fatal .customDictionary s else afterContinue { drop 16 s with tag := Tag.bhdr }
    else afterContinue { s with tag := Tag.bhdr }) := by
  simp only [zhdrAct, isZlibHeader_ofNat hv, hasFdict_ofNat hv]
  split
  · split <;> rfl
  · rfl

/-- A value that decodes in ZHDR16 fits in 16 bits, and its row is that of V (R139). -/
theorem decode_zhdr16_ok {v : Nat} {span : List Byte} {i : Instr} (h : decode .zhdr16 v span = .ok i) :
    v < 2 ^ 16 ∧ i = decodeZhdr (BitVec.ofNat 16 v) := by
  rw [decode, fixedField] at h
  split at h
  next hv => cases h; exact ⟨hv, rfl⟩
  · cases h

/-- Settles O21: with two bytes at hand ZHDR does what the row of its V does. -/
theorem zlibHeaderStep : Obligations.ZlibHeaderStep := by
  intro s
  by_cases hav : avail s < 16
  · rw [if_pos hav]
    change finish (zhdr s) = _
    rw [zhdr, withPeek_eq 16 le_rfl, if_pos hav]
    rfl
  · obtain ⟨i, hd, he⟩ := zhdr_matches (Nat.not_lt.1 hav)
    obtain ⟨hv, rfl⟩ := decode_zhdr16_ok hd
    rw [if_neg hav, he, exec_decodeZhdr, finish_zhdrAct hv]
    rfl

/-- Settles O41: each row is its act, and `finish` maps the act's outcome. -/
theorem headerTokens : Obligations.HeaderTokens := fun _ _ _ => ⟨rfl, rfl, rfl, rfl, rfl, rfl, rfl⟩

end Sys2Proof.Machine

/-! PROOF. What a step runs and how a STEP ends: StepRunsDecoded, StepEndings, TagsWithoutMicroOperation; the command words
that are refused: RefusedCommands, OpenSetsRegisters. -/

namespace Sys2Proof.Machine

/-! The command on the port (R430, R439). -/

theorem step_of_decode_ok {s : State} (hs : s.stepping = false) {c : Command} {cs : List Command} (hp : s.port = c :: cs)
    {i : Instr} (hd : decode .cmd32 c.word.toNat c.span = .ok i) : step s = exec i { s with port := cs } := by
  simp [step, fetch, hs, hp, hd]

theorem step_of_decode_error {s : State} (hs : s.stepping = false) {c : Command} {cs : List Command}
    (hp : s.port = c :: cs) {e : Reject} (hd : decode .cmd32 c.word.toNat c.span = .error e) :
    step s = .next (refuse { s with port := cs }) := by
  simp [step, fetch, hs, hp, hd]

theorem decode_cmd32_toNat (w : Word32) (span : List Byte) : decode .cmd32 w.toNat span = decodeCmd w span := by
  rw [decode_cmd32 w.isLt, BitVec.ofNat_toNat, BitVec.setWidth_eq]

/-- A command word that is refused: it sets a bit that R135 marks zero, or its command answers `refused` in every state. -/
inductive Refuses (w : Word32) (span : List Byte) : Prop where
  | undecoded (e : Reject) (h : decodeCmd w span = .error e)
  | decoded (i : Instr) (h : decodeCmd w span = .ok i) (hi : ∀ s, exec i s = .next (refuse s))

theorem Refuses.step {c : Command} (h : Refuses c.word c.span) {s : State} (hs : s.stepping = false) {cs : List Command}
    (hp : s.port = c :: cs) : step s = .next { s with port := cs, response := .refused } := by
  cases h with
  | undecoded e hd => exact step_of_decode_error hs hp ((decode_cmd32_toNat _ _).trans hd)
  | decoded i hd hi => exact (step_of_decode_ok hs hp ((decode_cmd32_toNat _ _).trans hd)).trans (hi _)

/-- CMD = 7 (R439). -/
theorem refuses_reserved {w : Word32} (hc : w.extractLsb' 0 3 = 7#3) (span : List Byte) : Refuses w span :=
  .decoded (.cmdReserved (w.extractLsb' 3 29)) (by simp [decodeCmd, hc]) fun _ => rfl

/-- OPEN with a bit of 31:7 set (R135). -/
theorem refuses_open_wide {w : Word32} (hc : w.extractLsb' 0 3 = 0#3) (hw : w >>> 7 ≠ 0#32) (span : List Byte) :
    Refuses w span :=
  .undecoded (.reservedBits w.toNat) (by simp [decodeCmd, hc, hw])

/-- OPEN with VND = 1 (R432). -/
theorem refuses_open_vendor {w : Word32} (hc : w.extractLsb' 0 3 = 0#3) (hv : w.getLsbD 5 = true) (span : List Byte) :
    Refuses w span := by
  by_cases hw : w >>> 7 = 0#32
  · have hd : decodeCmd w span = .ok (.cmdOpen span (w.getLsbD 3) (w.getLsbD 4) true (w.getLsbD 6)) := by
      rw [decodeCmd, hc, ← hv]
      exact if_pos hw
    exact .decoded _ hd fun _ => rfl
  · exact refuses_open_wide hc hw span

/-- READ_OUT with a bit of 15:3 set (R135). -/
theorem refuses_readOut {w : Word32} (hc : w.extractLsb' 0 3 = 5#3) (hw : w.extractLsb' 3 13 ≠ 0#13) (span : List Byte) :
    Refuses w span :=
  .undecoded (.reservedBits w.toNat) (by simp [decodeCmd, hc, hw])

/-- Any other command with a bit of 31:3 set (R135). -/
theorem refuses_other {w : Word32} (h0 : w.extractLsb' 0 3 ≠ 0#3) (h5 : w.extractLsb' 0 3 ≠ 5#3) (hw : w >>> 3 ≠ 0#32)
    (span : List Byte) : Refuses w span := by
  by_cases h7 : w.extractLsb' 0 3 = 7#3
  · exact refuses_reserved h7 span
  · have codes : ∀ c : BitVec 3, c ≠ 0#3 → c ≠ 5#3 → c ≠ 7#3 →
        c = 1#3 ∨ c = 2#3 ∨ c = 3#3 ∨ c = 4#3 ∨ c = 6#3 := by decide
    refine .undecoded (.reservedBits w.toNat) ?_
    rcases codes _ h0 h5 h7 with hc | hc | hc | hc | hc <;> simp [decodeCmd, hc, hw]

/-- Settles O4: by the command, each refused word being undecoded or a command that answers `refused`. -/
theorem refusedCommands : Obligations.RefusedCommands := by
  refine ⟨fun s c cs hs hp hw => ?_, fun _ _ => rfl⟩
  rcases hw with hc | ⟨hc, hv | hz⟩ | ⟨hc, hz⟩ | ⟨h0, h5, hz⟩
  · exact (refuses_reserved hc _).step hs hp
  · exact (refuses_open_vendor hc hv _).step hs hp
  · exact (refuses_open_wide hc hz _).step hs hp
  · exact (refuses_readOut hc hz _).step hs hp
  · exact (refuses_other h0 h5 hz _).step hs hp

/-- Settles O3: by OPEN's definition, and for the reserved bits by the refused word. -/
theorem openSetsRegisters : Obligations.OpenSetsRegisters :=
  ⟨fun _ _ _ _ _ => rfl, fun _ _ _ _ _ => rfl, fun _ _ _ _ hs hp hc hw => (refuses_open_wide hc hw _).step hs hp⟩

/-! What a step runs, and how a STEP ends. -/

/-- Settles O12: by the three sources of the fetch. -/
theorem stepRunsDecoded : Obligations.StepRunsDecoded := by
  refine ⟨fun s hs => ?_, fun s c cs i hs hp hd => step_of_decode_ok hs hp hd, fun s hs hp => ?_⟩
  · simp only [step, fetch, hs, if_true]
  · simp only [step, fetch, hs, hp, Bool.false_eq_true, if_false]

/-- The YIELD draw after a `continue` of a STEP (R434). -/
theorem afterContinue_eq (s : State) : afterContinue s =
    if Config.yieldDraw s.draws = true then
      { s with
        status := 0#3, stepping := false, draws := s.draws + 1
        response := .word (responseWord 0#3 s.errKind s.huffReason s.outLen) }
    else { s with draws := s.draws + 1 } := by
  cases hy : Config.yieldDraw s.draws with
  | true => simp only [afterContinue, hy, cond_true, Bool.not_true, Bool.and_false, if_true]; rfl
  | false => simp only [afterContinue, hy, cond_false, Bool.not_false, Bool.and_true, Bool.false_eq_true, if_false]

/-- Settles O13: a `continue` by the YIELD draw, every other outcome as `finish` maps it. -/
theorem stepEndings : Obligations.StepEndings := fun s =>
  ⟨congrArg Host.Outcome.next (afterContinue_eq s), rfl, rfl, rfl, fun _ => rfl⟩

/-- Settles O6: each row is the answer of invalid_state or the fatal entry. -/
theorem tagsWithoutMicroOperation : Obligations.TagsWithoutMicroOperation := fun _ _ => ⟨rfl, rfl, rfl, rfl⟩

end Sys2Proof.Machine

/-! PROOF. The answers of SUPPLY and of the queries: SupplySpan, IsFinalAnswer, PositionAnswer, ReadOutByte, ReadCrcAnswer. -/

namespace Sys2Proof.Machine

/-- Settles O7: by TAG's kind, then by the bytes of the span not yet pulled. -/
theorem supplySpan : Obligations.SupplySpan := by
  intro s span
  change execSupply span s = _
  simp only [execSupply, tagTerminal_iff]
  rfl

/-- Settles O8: by the definition of IS_FINAL, whose cases are the statement's. -/
theorem isFinalAnswer : Obligations.IsFinalAnswer := fun _ => rfl

/-- Settles O11: by the definition of READ_CRC, whose cases are the statement's. -/
theorem readCrcAnswer : Obligations.ReadCrcAnswer := fun _ => rfl

/-! POSITION (R206). -/

/-- c = 8·IN_TOTAL − NBITS as an integer (R206). -/
def consumedBits (s : State) : Int := 8 * (s.inTotal.toNat : Int) - (s.acc.length : Int)

theorem positionBits_eq (s : State) : positionBits s = BitVec.ofInt 67 (consumedBits s) := by
  have htotal := s.inTotal.isLt
  apply BitVec.eq_of_toNat_eq
  simp only [positionBits, consumedBits, BitVec.toNat_sub, BitVec.toNat_shiftLeft, BitVec.toNat_setWidth, BitVec.toNat_ofNat,
    BitVec.toNat_ofInt, Nat.shiftLeft_eq]
  omega

/-- The upper 64 of 67 bits are the floor quotient by 8 (R10). -/
theorem positionBytes_eq (s : State) : positionBytes s = BitVec.ofInt 64 (consumedBits s / 8) := by
  apply BitVec.eq_of_toNat_eq
  rw [positionBytes, positionBits_eq, toNat_field, BitVec.toNat_ofInt, BitVec.toNat_ofInt]
  omega

/-- The lower 3 of 67 bits are the remainder by 8 (R10). -/
theorem positionResidual_eq (s : State) : positionResidual s = BitVec.ofInt 3 (consumedBits s % 8) := by
  apply BitVec.eq_of_toNat_eq
  rw [positionResidual, positionBits_eq, BitVec.toNat_setWidth, BitVec.toNat_ofInt, BitVec.toNat_ofInt]
  omega

/-- Settles O9: the 67-bit value of R206 is c, and its parts are c's quotient and remainder by 8. -/
theorem positionAnswer : Obligations.PositionAnswer := by
  intro s
  change execPosition s = _
  rw [execPosition, positionBytes_eq, positionResidual_eq]
  rfl

/-! READ_OUT (R437). -/

/-- READ_OUT(i) has a byte to hand over. -/
def Readable (s : State) (i : BitVec 16) : Prop :=
  s.flushPending = true ∧ s.tag ≠ Tag.unopened ∧ s.tag ≠ Tag.failed ∧ i.toNat < s.outLen.toNat

theorem readable_iff (s : State) (i : BitVec 16) :
    (s.flushPending && s.tag != Tag.unopened && s.tag != Tag.failed && decide (i.toNat < s.outLen.toNat)) = true ↔
      Readable s i := by
  simp only [Readable, Bool.and_eq_true, bne_iff_ne, decide_eq_true_eq, and_assoc]

theorem execReadOut_of_readable {s : State} {i : BitVec 16} {b : Byte} (h : Readable s i)
    (hb : Memory.read s.win i.toNat = some b) : execReadOut i s = .next { s with response := .outByte b } := by
  rw [execReadOut, if_pos ((readable_iff s i).2 h), hb]

theorem execReadOut_of_not_readable {s : State} {i : BitVec 16} (h : ¬ Readable s i) :
    execReadOut i s = .next (refuse s) :=
  if_neg (mt (readable_iff s i).1 h)

/-- Settles O10: by READ_OUT's condition; under the invariant the span handed over is written. -/
theorem readOutByte : Obligations.ReadOutByte := by
  refine ⟨fun s i b hf hu hfail hi hb => execReadOut_of_readable ⟨hf, hu, hfail, hi⟩ hb, fun s i h => ?_,
    fun s i hinv hf hi => Option.isSome_iff_exists.1 (hinv.spanWritten hf i.toNat hi)⟩
  refine execReadOut_of_not_readable ?_
  rintro ⟨hf, hu, hfail, hi⟩
  rcases h with h | h | h | h
  · rw [hf] at h
    cases h
  · exact hu h
  · exact hfail h
  · exact absurd hi (Nat.not_lt.2 h)

end Sys2Proof.Machine

/-! PROOF. The fatal entry and what FAILED answers: FatalEntry. -/

namespace Sys2Proof.Machine

theorem tagTerminal_of_failed {s : State} (h : s.tag = Tag.failed) : tagTerminal s.tag = true :=
  (tagTerminal_iff s.tag).2 (.inr (.inr h))

/-- STEP on a terminal TAG answers Error(invalid_state) (R431). -/
theorem execStep_terminal {s : State} (h : tagTerminal s.tag = true) : exec .cmdStep s = .next (rejectState s) :=
  congrArg Host.Outcome.next (if_pos h)

/-- SUPPLY on a terminal TAG answers Error(invalid_state) (R433). -/
theorem execSupply_terminal {s : State} (h : tagTerminal s.tag = true) (span : List Byte) :
    exec (.cmdSupply span) s = .next (rejectState s) :=
  congrArg Host.Outcome.next (if_pos h)

/-- The answer to STEP or SUPPLY after fatal(k) changes the response alone, since fatal(k) has ended the STEP (R503). -/
theorem rejectState_fatal (k : ErrKind) (s : State) :
    rejectState (fatal k s) = { fatal k s with response := .word 0x2C#32 } := rfl

/-- READ_OUT in FAILED is refused (R437). -/
theorem execReadOut_failed {s : State} (h : s.tag = Tag.failed) (index : BitVec 16) :
    exec (.cmdReadOut index) s = .next (refuse s) :=
  execReadOut_of_not_readable fun ⟨_, _, hne, _⟩ => hne h

/-- In FAILED only a command word of OPEN can change TAG: STEP and SUPPLY are rejected, the others only answer (R504). -/
theorem IsCommand.stays_failed {c : Command} {i : Instr} (hi : IsCommand c i) (hopen : c.word.extractLsb' 0 3 ≠ 0#3)
    {s t : State} (hs : s.tag = Tag.failed) (h : exec i s = .next t) : t.tag = Tag.failed := by
  have hterm := tagTerminal_of_failed hs
  have hunopened : s.tag ≠ Tag.unopened := by rw [hs]; decide
  have hdone : s.tag ≠ Tag.done := by rw [hs]; decide
  cases hi with
  | openStream _ _ _ _ hw => exact absurd hw hopen
  | step =>
    rw [execStep_terminal hterm] at h
    cases h
    exact hs
  | supply _ =>
    rw [execSupply_terminal hterm] at h
    cases h
    exact hs
  | isFinal =>
    cases h
    rw [if_neg hunopened, if_pos hs]
    exact hs
  | position =>
    cases h
    rw [if_neg hunopened, if_pos hs]
    exact hs
  | readOut index =>
    rw [execReadOut_failed hs] at h
    cases h
    exact hs
  | readCrc =>
    cases h
    rw [if_neg hunopened, if_neg hdone]
    exact hs
  | reserved _ =>
    cases h
    exact hs

/-- A step leaves FAILED only by a pending OPEN (R503, R504). -/
theorem step_stays_failed {s t : State} (hs : s.tag = Tag.failed)
    (hopen : ∀ c cs, s.port = c :: cs → c.word.extractLsb' 0 3 ≠ 0#3) (h : step s = .next t) : t.tag = Tag.failed := by
  cases hst : s.stepping with
  | true =>
    have hrun : step s = .next (rejectState s) :=
      (stepRunsDecoded.1 s hst).trans (exec_terminal (tagTerminal_of_failed hs) s)
    rw [hrun] at h
    cases h
    exact hs
  | false =>
    rcases step_of_idle hst with he | ⟨c, cs, hp, he | ⟨i, hi, he⟩⟩ <;> rw [he] at h
    · cases h
      exact hs
    · cases h
      exact hs
    · exact hi.stays_failed (hopen c cs hp) (s := { s with port := cs }) hs h

/-- Settles O14: fatal(k) by its definition; FAILED is terminal, so STEP and SUPPLY are rejected; a step by what it fetches. -/
theorem fatalEntry : Obligations.FatalEntry := by
  refine ⟨fun _ _ => rfl, fun k s span => ?_, fun _ _ hs hopen h => step_stays_failed hs hopen h⟩
  have hterm := tagTerminal_of_failed (fatal_tag s k)
  rw [execStep_terminal hterm, execSupply_terminal hterm, rejectState_fatal]
  exact ⟨rfl, rfl⟩

end Sys2Proof.Machine

/-! PROOF. Power-on and the commands in UNOPENED: PowerOnState, UnopenedCommands, ResetInv. -/

namespace Sys2Proof.Machine

/-- Settles O1: every memory is empty at power-on, and no element of an empty memory is written. -/
theorem powerOnState : Obligations.PowerOnState :=
  ⟨rfl, rfl, rfl, fun _ => rfl, fun _ => rfl, fun _ => rfl, fun _ => rfl, fun _ => rfl, fun _ => rfl⟩

/-! The commands in UNOPENED (R600). -/

theorem tagTerminal_of_unopened {s : State} (h : s.tag = Tag.unopened) : tagTerminal s.tag = true :=
  (tagTerminal_iff s.tag).2 (.inl h)

/-- READ_OUT in UNOPENED is refused (R437). -/
theorem execReadOut_unopened {s : State} (h : s.tag = Tag.unopened) (index : BitVec 16) :
    exec (.cmdReadOut index) s = .next (refuse s) :=
  execReadOut_of_not_readable fun ⟨_, hne, _, _⟩ => hne h

/-- Settles O2: UNOPENED is terminal, so STEP and SUPPLY are rejected; each query's case of UNOPENED is the refusal; OPEN is
O3's. -/
theorem unopenedCommands : Obligations.UnopenedCommands := by
  intro s span i hs
  have hterm := tagTerminal_of_unopened hs
  refine ⟨execStep_terminal hterm, execSupply_terminal hterm span, ?isFinal, ?position, execReadOut_unopened hs i, ?readCrc,
    fun ph nla ovr => ⟨_, openSetsRegisters.1 s span ph nla ovr, rfl⟩⟩
  case isFinal => exact (isFinalAnswer s).trans (congrArg Host.Outcome.next (if_pos hs))
  case position => exact (positionAnswer s).trans (congrArg Host.Outcome.next (if_pos hs))
  case readCrc => exact (readCrcAnswer s).trans (congrArg Host.Outcome.next (if_pos hs))

/-! The invariant at power-on. -/

theorem sized_nil {α : Type} (n : Nat) : Sized ([] : Memory α) n := ⟨.nil, nofun⟩

/-- Nothing is read, produced or written at power-on, and no flush is pending. -/
theorem running_reset : Running State.reset where
  vendor := rfl
  nbits := Nat.zero_le _
  ipos := le_rfl
  hist := Nat.zero_le _
  wpos := le_rfl
  room := wpos_zero_room
  acked := rfl
  status := status_progress_legal
  errKind := Nat.zero_le _
  written := fun _ h1 h2 => absurd (h1.trans h2) (Nat.not_succ_le_zero 0)
  win := sized_nil _
  tLL := sized_nil _
  tD := sized_nil _
  tCL := sized_nil _
  clens := sized_nil _
  lens := sized_nil _

/-- Settles O57: the registers and memories at power-on are in range, and UNOPENED's phase needs nothing. -/
theorem resetInv : Obligations.ResetInv := running_reset.inv (ready_of_tag Tag.unopened rfl trivial)

end Sys2Proof.Machine
